-- ==== Sys2Proof/Word.lean ====
section
/-! DEFINITION. The machine's words: the widths of spec/00_scope.md R8-R15 and the byte order of R50.
Everything here is the plainest bit arithmetic; what an instruction does with a word stands under Machine/. -/

namespace Sys2Proof

/-- A byte: a general register, a memory cell, a timer, the immediate kk (R8, R14, R66). -/
abbrev Byte := BitVec 8

/-- A 16-bit word: I, PC, a stack entry, an instruction word (R9, R10, R11, R15). -/
abbrev Word := BitVec 16

/-- A 4-bit field of an instruction word (R66). -/
abbrev Nibble := BitVec 4

/-- The 12-bit address field nnn (R66). -/
abbrev Addr12 := BitVec 12

/-- The number of a general register, V0 to VF (R21): a register index "is always 0-15". -/
abbrev Reg := Fin 16

/-- VF, the register that is also the flag register (R22). -/
abbrev Reg.vf : Reg := 15

/-- Two bytes as one word, the first the high byte (R50: "high byte at PC"). -/
abbrev wordOfBytes (hi lo : Byte) : Word := hi ++ lo

end Sys2Proof
end

