-- ==== Sys2Proof/Syntax.lean ====
section
/-! DEFINITION. The instructions: one constructor of Instr for each of the 34 rows of spec/opcode_table.json, in the
table's order, and the 35 outcomes of decoding a word (R77). A field has exactly the width the encoding gives it
(R66, R69), so an operand out of range cannot be written down. -/

namespace Sys2Proof

/-- The 34 instructions of R71. x and y are register numbers, kk an 8-bit immediate, nnn a 12-bit address and n the
number of sprite rows. -/
inductive Instr where
  /-- 00E0 CLS (R151) -/
  | cls
  /-- 00EE RET (R100) -/
  | ret
  /-- 1nnn JP addr (R101) -/
  | jp (nnn : Addr12)
  /-- 2nnn CALL addr (R102) -/
  | call (nnn : Addr12)
  /-- 3xkk SE Vx, byte (R103) -/
  | seByte (x : Reg) (kk : Byte)
  /-- 4xkk SNE Vx, byte (R104) -/
  | sneByte (x : Reg) (kk : Byte)
  /-- 5xy0 SE Vx, Vy (R105) -/
  | seReg (x y : Reg)
  /-- 9xy0 SNE Vx, Vy (R106) -/
  | sneReg (x y : Reg)
  /-- 6xkk LD Vx, byte (R117) -/
  | ldByte (x : Reg) (kk : Byte)
  /-- 7xkk ADD Vx, byte (R118) -/
  | addByte (x : Reg) (kk : Byte)
  /-- 8xy0 LD Vx, Vy (R119) -/
  | ldReg (x y : Reg)
  /-- 8xy1 OR Vx, Vy (R120) -/
  | orReg (x y : Reg)
  /-- 8xy2 AND Vx, Vy (R121) -/
  | andReg (x y : Reg)
  /-- 8xy3 XOR Vx, Vy (R122) -/
  | xorReg (x y : Reg)
  /-- 8xy4 ADD Vx, Vy (R123) -/
  | addReg (x y : Reg)
  /-- 8xy5 SUB Vx, Vy (R124) -/
  | sub (x y : Reg)
  /-- 8xy6 SHR Vx, Vy (R125); y is decoded and not read -/
  | shr (x y : Reg)
  /-- 8xy7 SUBN Vx, Vy (R126) -/
  | subn (x y : Reg)
  /-- 8xyE SHL Vx, Vy (R127); y is decoded and not read -/
  | shl (x y : Reg)
  /-- Annn LD I, addr (R140) -/
  | ldI (nnn : Addr12)
  /-- Bnnn JP V0, addr (R107) -/
  | jpV0 (nnn : Addr12)
  /-- Cxkk RND Vx, byte (R128) -/
  | rnd (x : Reg) (kk : Byte)
  /-- Dxyn DRW Vx, Vy, n (R152) -/
  | drw (x y : Reg) (n : Nibble)
  /-- Ex9E SKP Vx (R160) -/
  | skp (x : Reg)
  /-- ExA1 SKNP Vx (R161) -/
  | sknp (x : Reg)
  /-- Fx07 LD Vx, DT (R162) -/
  | ldVxDT (x : Reg)
  /-- Fx0A LD Vx, K (R163) -/
  | ldVxK (x : Reg)
  /-- Fx15 LD DT, Vx (R164) -/
  | ldDTVx (x : Reg)
  /-- Fx18 LD ST, Vx (R165) -/
  | ldSTVx (x : Reg)
  /-- Fx1E ADD I, Vx (R141) -/
  | addIVx (x : Reg)
  /-- Fx29 LD F, Vx (R142) -/
  | ldFVx (x : Reg)
  /-- Fx33 LD B, Vx (R143) -/
  | ldBVx (x : Reg)
  /-- Fx55 LD [I], Vx (R144) -/
  | ldMemVx (x : Reg)
  /-- Fx65 LD Vx, [I] (R145) -/
  | ldVxMem (x : Reg)
  deriving DecidableEq, Repr

/-- What a 16-bit word decodes to (R77): one of the 34 instructions with its fields, or UNKNOWN, which is no
instruction of the table and no error but a no-op (R72, R88). -/
inductive Decoded where
  | instr (i : Instr)
  | unknown (w : Word)
  deriving DecidableEq, Repr

end Sys2Proof
end

