-- ==== Sys2Proof/WellFormed.lean ====
section
/-! DEFINITION. Well-formed syntax. An Instr is well-formed as it stands: R21 and 93_implementation_defined.md U9 say
that a register index out of range "cannot occur", R68 bounds no other field further, and Instr's fields have exactly
the encoding's widths. What can be ill-formed is an UNKNOWN outcome that carries a word of some instruction: the
UNKNOWN words are exactly those of the six spaces of R72's table, and each space is one check below. -/

namespace Sys2Proof

/-- Space 0nnn of R72: 0x0000-0x0FFF other than 00E0 and 00EE. -/
def inUnknown0 (w : Word) : Bool := w.toNat / 4096 == 0 && w != 0x00E0 && w != 0x00EE

/-- Space 5xyN of R72: N is not 0. -/
def inUnknown5 (w : Word) : Bool := w.toNat / 4096 == 5 && w.toNat % 16 != 0

/-- Space 8xyN of R72: N is one of 8, 9, A, B, C, D, F. -/
def inUnknown8 (w : Word) : Bool :=
  w.toNat / 4096 == 8 && [0x8, 0x9, 0xA, 0xB, 0xC, 0xD, 0xF].contains (w.toNat % 16)

/-- Space 9xyN of R72: N is not 0. -/
def inUnknown9 (w : Word) : Bool := w.toNat / 4096 == 9 && w.toNat % 16 != 0

/-- Space ExKK of R72: KK is neither 9E nor A1. -/
def inUnknownE (w : Word) : Bool :=
  w.toNat / 4096 == 14 && !([0x9E, 0xA1].contains (w.toNat % 256))

/-- Space FxKK of R72: KK is none of 07, 0A, 15, 18, 1E, 29, 33, 55, 65. -/
def inUnknownF (w : Word) : Bool :=
  w.toNat / 4096 == 15 &&
    !([0x07, 0x0A, 0x15, 0x18, 0x1E, 0x29, 0x33, 0x55, 0x65].contains (w.toNat % 256))

/-- The UNKNOWN space, R72: the six rows of its table. -/
def inUnknownSpace (w : Word) : Bool :=
  inUnknown0 w || inUnknown5 w || inUnknown8 w || inUnknown9 w || inUnknownE w || inUnknownF w

/-- A decode outcome is well-formed: an instruction always, UNKNOWN only with a word of R72's space. -/
def Decoded.wf : Decoded → Bool
  | .instr _ => true
  | .unknown w => inUnknownSpace w

end Sys2Proof
end

