-- ==== Sys2Proof/Decode.lean ====
section
/-! DEFINITION. The decoder and the dispatch on nibble patterns (spec/30_encoding.md R66-R77), the encoder written
from the same formats (R69), and the opcode map of R71 as data. -/

namespace Sys2Proof

/-! ### Fields (R66) -/

/-- op = w[15:12]. -/
def opField (w : Word) : Nibble := w.extractLsb' 12 4

/-- x = w[11:8], as a register number. -/
def xField (w : Word) : Reg := (w.extractLsb' 8 4).toFin

/-- y = w[7:4], as a register number. -/
def yField (w : Word) : Reg := (w.extractLsb' 4 4).toFin

/-- n = w[3:0]. -/
def nField (w : Word) : Nibble := w.extractLsb' 0 4

/-- kk = w[7:0]. -/
def kkField (w : Word) : Byte := w.extractLsb' 0 8

/-- nnn = w[11:0]. -/
def nnnField (w : Word) : Addr12 := w.extractLsb' 0 12

/-! ### Dispatch (R70-R72) -/

/-- The words 0nnn: 00E0 and 00EE exactly; the rest is UNKNOWN (R73). -/
def decode0 (w : Word) : Decoded :=
  if w = 0x00E0 then .instr .cls
  else if w = 0x00EE then .instr .ret
  else .unknown w

/-- The words 8xyN, by N. -/
def decode8 (w : Word) : Decoded :=
  match (nField w).toNat with
  | 0x0 => .instr (.ldReg (xField w) (yField w))
  | 0x1 => .instr (.orReg (xField w) (yField w))
  | 0x2 => .instr (.andReg (xField w) (yField w))
  | 0x3 => .instr (.xorReg (xField w) (yField w))
  | 0x4 => .instr (.addReg (xField w) (yField w))
  | 0x5 => .instr (.sub (xField w) (yField w))
  | 0x6 => .instr (.shr (xField w) (yField w))
  | 0x7 => .instr (.subn (xField w) (yField w))
  | 0xE => .instr (.shl (xField w) (yField w))
  | _ => .unknown w

/-- The words ExKK, by KK. -/
def decodeE (w : Word) : Decoded :=
  match (kkField w).toNat with
  | 0x9E => .instr (.skp (xField w))
  | 0xA1 => .instr (.sknp (xField w))
  | _ => .unknown w

/-- The words FxKK, by KK. -/
def decodeF (w : Word) : Decoded :=
  match (kkField w).toNat with
  | 0x07 => .instr (.ldVxDT (xField w))
  | 0x0A => .instr (.ldVxK (xField w))
  | 0x15 => .instr (.ldDTVx (xField w))
  | 0x18 => .instr (.ldSTVx (xField w))
  | 0x1E => .instr (.addIVx (xField w))
  | 0x29 => .instr (.ldFVx (xField w))
  | 0x33 => .instr (.ldBVx (xField w))
  | 0x55 => .instr (.ldMemVx (xField w))
  | 0x65 => .instr (.ldVxMem (xField w))
  | _ => .unknown w

/-- Decode and dispatch, total on the 65536 words (R67, R77). A literal nibble of a pattern must match exactly
(R70; assumption 17); a word that no pattern matches is UNKNOWN. The last line answers for no word: a nibble is at
most 15. -/
def decode (w : Word) : Decoded :=
  match (opField w).toNat with
  | 0x0 => decode0 w
  | 0x1 => .instr (.jp (nnnField w))
  | 0x2 => .instr (.call (nnnField w))
  | 0x3 => .instr (.seByte (xField w) (kkField w))
  | 0x4 => .instr (.sneByte (xField w) (kkField w))
  | 0x5 => if nField w = 0 then .instr (.seReg (xField w) (yField w)) else .unknown w
  | 0x6 => .instr (.ldByte (xField w) (kkField w))
  | 0x7 => .instr (.addByte (xField w) (kkField w))
  | 0x8 => decode8 w
  | 0x9 => if nField w = 0 then .instr (.sneReg (xField w) (yField w)) else .unknown w
  | 0xA => .instr (.ldI (nnnField w))
  | 0xB => .instr (.jpV0 (nnnField w))
  | 0xC => .instr (.rnd (xField w) (kkField w))
  | 0xD => .instr (.drw (xField w) (yField w) (nField w))
  | 0xE => decodeE w
  | 0xF => decodeF w
  | _ => .unknown w

/-- The instruction the decoder reads from a table word: bits 15..8 are the byte at the lower address (R50), none
where the word is UNKNOWN. -/
def decodeTableWord (nbits w : Nat) : Option Instr :=
  let word : Word := BitVec.ofNat 16 (w % 2 ^ nbits)
  match decode (wordOfBytes (word.extractLsb' 8 8) (word.extractLsb' 0 8)) with
  | .instr i => some i
  | .unknown _ => none

/-! ### Encoder (R69) -/

/-- A register number as the 4-bit field that names it. -/
def regField (r : Reg) : Nibble := BitVec.ofFin r

/-- Format ADDR: op nnn. -/
def encAddr (op : Nibble) (nnn : Addr12) : Word := op ++ nnn

/-- Format XKK: op x kk. -/
def encXkk (op : Nibble) (x : Reg) (kk : Byte) : Word := op ++ regField x ++ kk

/-- Formats XYS and XYN: op x y n. -/
def encXyn (op : Nibble) (x y : Reg) (n : Nibble) : Word := op ++ regField x ++ regField y ++ n

/-- The word of an instruction, by its row's format and fixed digits. -/
def encode : Instr → Word
  | .cls => 0x00E0
  | .ret => 0x00EE
  | .jp nnn => encAddr 0x1 nnn
  | .call nnn => encAddr 0x2 nnn
  | .seByte x kk => encXkk 0x3 x kk
  | .sneByte x kk => encXkk 0x4 x kk
  | .seReg x y => encXyn 0x5 x y 0x0
  | .sneReg x y => encXyn 0x9 x y 0x0
  | .ldByte x kk => encXkk 0x6 x kk
  | .addByte x kk => encXkk 0x7 x kk
  | .ldReg x y => encXyn 0x8 x y 0x0
  | .orReg x y => encXyn 0x8 x y 0x1
  | .andReg x y => encXyn 0x8 x y 0x2
  | .xorReg x y => encXyn 0x8 x y 0x3
  | .addReg x y => encXyn 0x8 x y 0x4
  | .sub x y => encXyn 0x8 x y 0x5
  | .shr x y => encXyn 0x8 x y 0x6
  | .subn x y => encXyn 0x8 x y 0x7
  | .shl x y => encXyn 0x8 x y 0xE
  | .ldI nnn => encAddr 0xA nnn
  | .jpV0 nnn => encAddr 0xB nnn
  | .rnd x kk => encXkk 0xC x kk
  | .drw x y n => encXyn 0xD x y n
  | .skp x => encXkk 0xE x 0x9E
  | .sknp x => encXkk 0xE x 0xA1
  | .ldVxDT x => encXkk 0xF x 0x07
  | .ldVxK x => encXkk 0xF x 0x0A
  | .ldDTVx x => encXkk 0xF x 0x15
  | .ldSTVx x => encXkk 0xF x 0x18
  | .addIVx x => encXkk 0xF x 0x1E
  | .ldFVx x => encXkk 0xF x 0x29
  | .ldBVx x => encXkk 0xF x 0x33
  | .ldMemVx x => encXkk 0xF x 0x55
  | .ldVxMem x => encXkk 0xF x 0x65

/-- The word of a decode outcome: an instruction's word, or the UNKNOWN word itself. -/
def encodeDecoded : Decoded → Word
  | .instr i => encode i
  | .unknown w => w

/-! ### The opcode map (R71) -/

/-- One row of R71: "A word w is the instruction of a row iff (w & mask) == match". -/
structure OpcodeRow where
  bits : Word
  mask : Word
  deriving DecidableEq, Repr

/-- Whether a word is the instruction of a row. -/
def OpcodeRow.hits (r : OpcodeRow) (w : Word) : Bool := w &&& r.mask == r.bits

/-- The row of an instruction. -/
def rowOf : Instr → OpcodeRow
  | .cls => ⟨0x00E0, 0xFFFF⟩
  | .ret => ⟨0x00EE, 0xFFFF⟩
  | .jp _ => ⟨0x1000, 0xF000⟩
  | .call _ => ⟨0x2000, 0xF000⟩
  | .seByte _ _ => ⟨0x3000, 0xF000⟩
  | .sneByte _ _ => ⟨0x4000, 0xF000⟩
  | .seReg _ _ => ⟨0x5000, 0xF00F⟩
  | .sneReg _ _ => ⟨0x9000, 0xF00F⟩
  | .ldByte _ _ => ⟨0x6000, 0xF000⟩
  | .addByte _ _ => ⟨0x7000, 0xF000⟩
  | .ldReg _ _ => ⟨0x8000, 0xF00F⟩
  | .orReg _ _ => ⟨0x8001, 0xF00F⟩
  | .andReg _ _ => ⟨0x8002, 0xF00F⟩
  | .xorReg _ _ => ⟨0x8003, 0xF00F⟩
  | .addReg _ _ => ⟨0x8004, 0xF00F⟩
  | .sub _ _ => ⟨0x8005, 0xF00F⟩
  | .shr _ _ => ⟨0x8006, 0xF00F⟩
  | .subn _ _ => ⟨0x8007, 0xF00F⟩
  | .shl _ _ => ⟨0x800E, 0xF00F⟩
  | .ldI _ => ⟨0xA000, 0xF000⟩
  | .jpV0 _ => ⟨0xB000, 0xF000⟩
  | .rnd _ _ => ⟨0xC000, 0xF000⟩
  | .drw _ _ _ => ⟨0xD000, 0xF000⟩
  | .skp _ => ⟨0xE09E, 0xF0FF⟩
  | .sknp _ => ⟨0xE0A1, 0xF0FF⟩
  | .ldVxDT _ => ⟨0xF007, 0xF0FF⟩
  | .ldVxK _ => ⟨0xF00A, 0xF0FF⟩
  | .ldDTVx _ => ⟨0xF015, 0xF0FF⟩
  | .ldSTVx _ => ⟨0xF018, 0xF0FF⟩
  | .addIVx _ => ⟨0xF01E, 0xF0FF⟩
  | .ldFVx _ => ⟨0xF029, 0xF0FF⟩
  | .ldBVx _ => ⟨0xF033, 0xF0FF⟩
  | .ldMemVx _ => ⟨0xF055, 0xF0FF⟩
  | .ldVxMem _ => ⟨0xF065, 0xF0FF⟩

/-- The 34 rows, in the table's order, each taken at one instruction of the row. -/
def opcodeTable : List OpcodeRow :=
  [Instr.cls, .ret, .jp 0, .call 0, .seByte 0 0, .sneByte 0 0, .seReg 0 0, .sneReg 0 0,
    .ldByte 0 0, .addByte 0 0].map rowOf ++
  [Instr.ldReg 0 0, .orReg 0 0, .andReg 0 0, .xorReg 0 0, .addReg 0 0, .sub 0 0, .shr 0 0,
    .subn 0 0, .shl 0 0].map rowOf ++
  [Instr.ldI 0, .jpV0 0, .rnd 0 0, .drw 0 0 0, .skp 0, .sknp 0].map rowOf ++
  [Instr.ldVxDT 0, .ldVxK 0, .ldDTVx 0, .ldSTVx 0, .addIVx 0, .ldFVx 0, .ldBVx 0,
    .ldMemVx 0, .ldVxMem 0].map rowOf

end Sys2Proof
end

