-- ==== Sys2Proof/Config.lean ====
section
/-! DEFINITION. What is fixed for one machine: the implementation parameters of spec/00_scope.md R7-R15, the named
parameters of spec/92_eei_decisions.md at their defaults, and the values that come from outside the core (the key
snapshots and random bytes of R90), which are free: opaque constants that no proof can look into. -/

namespace Sys2Proof.Config

/-- MEM_SIZE = 4096 (R7). -/
def memSize : Nat := 4096

/-- ENTRY, the program entry address, at its default 0x200 (R15, R194; assumption 8). -/
def entry : Word := 0x200

/-- FONT, the 80 bytes copied to 0x000-0x04F at reset, at the default of R193: glyph d is the five bytes from 5d
(assumption 4). -/
def font : List Byte :=
  [0xF0, 0x90, 0x90, 0x90, 0xF0] ++
  [0x20, 0x60, 0x20, 0x20, 0x70] ++
  [0xF0, 0x10, 0xF0, 0x80, 0xF0] ++
  [0xF0, 0x10, 0xF0, 0x10, 0xF0] ++
  [0x90, 0x90, 0xF0, 0x10, 0x10] ++
  [0xF0, 0x80, 0xF0, 0x10, 0xF0] ++
  [0xF0, 0x80, 0xF0, 0x90, 0xF0] ++
  [0xF0, 0x10, 0x20, 0x40, 0x40] ++
  [0xF0, 0x90, 0xF0, 0x90, 0xF0] ++
  [0xF0, 0x90, 0xF0, 0x10, 0xF0] ++
  [0xF0, 0x90, 0xF0, 0x90, 0x90] ++
  [0xE0, 0x90, 0xE0, 0x90, 0xE0] ++
  [0xF0, 0x80, 0x80, 0x80, 0xF0] ++
  [0xE0, 0x90, 0x90, 0x90, 0xE0] ++
  [0xF0, 0x80, 0xF0, 0x80, 0xF0] ++
  [0xF0, 0x80, 0xF0, 0x80, 0x80]

/-- VF_ORDER (92_eei_decisions.md D4): how 8xy5, 8xy6, 8xy7 and 8xyE act when an operand is VF. -/
inductive VfOrder where
  /-- The source's statement order: VF first, then V[x] from the registers after that write (the default). -/
  | sourceOrder
  /-- Both operands are read first, V[x] is written, then VF. -/
  | flagLast
  deriving DecidableEq, Repr

/-- I_INCREMENT (92_eei_decisions.md D11): what Fx55 and Fx65 do to I. -/
inductive IndexIncrement where
  /-- I is unchanged (the default). -/
  | none
  /-- I is advanced by x + 1. -/
  | xPlusOne
  deriving DecidableEq, Repr

/-- SPRITE_BIT_ORDER (92_eei_decisions.md D32): which bit of a sprite byte is its leftmost pixel. -/
inductive SpriteBitOrder where
  /-- Bit 7 is at column V[x], bit 0 at V[x] + 7 (the default). -/
  | msbLeft
  /-- Bit 0 is at column V[x], bit 7 at V[x] + 7. -/
  | lsbLeft
  deriving DecidableEq, Repr

/-- VF_ORDER at its default (R116; assumption 5). -/
def vfOrder : VfOrder := .sourceOrder

/-- I_INCREMENT at its default (R144, R145; assumption 6). -/
def indexIncrement : IndexIncrement := .none

/-- SPRITE_BIT_ORDER at its default (R152; assumption 7). -/
def spriteBitOrder : SpriteBitOrder := .msbLeft

/-- FREE VALUE. The key snapshot the host supplies for a step it has not laid out in State.supplied, one for each
value of State.freeTick (R90: "A model takes both as free inputs of the step, quantified over all values";
assumption 2). -/
opaque freeKeys : Nat → BitVec 16

/-- FREE VALUE. The random byte offered with such a step (R90, R128; assumption 2). -/
opaque freeRnd : Nat → Byte

end Sys2Proof.Config
end

