-- ==== Sys2Proof/Machine/State.lean ====
section
/-! DEFINITION. The state of the machine, all of it (spec/10_state.md R20: "the architectural state of the core is
exactly" this, and the inputs of R32 and R39), the reasons a step can stop, and the state after reset (R43,
spec/70_reset_and_hazards.md R191). -/

namespace Sys2Proof.Machine

/-- The reasons a step of this machine stops with a fault: NONE. The spec's own faults (FETCH_OOB, DATA_OOB,
KEY_INDEX; 60_exceptions.md R171) are a state of the machine that every later step keeps (R174, 40_execution_cycle.md
R82), and the model enters that state: a next state. No constructor, so no one can raise one: safe (assumption 1). -/
inductive Fault where
  deriving DecidableEq, Repr

/-- The reasons a step is refused. -/
inductive Refusal where
  /-- An instruction that has no meaning yet; raised by an arm of exec alone. No arm raises it. Safe. -/
  | notModelled (mnemonic : String)
  deriving DecidableEq, Repr

/-- fault_code (R34, R171). -/
inductive FaultCode where
  /-- 0, no fault -/
  | none
  /-- 1, the fetch reached beyond memory (R172) -/
  | fetchOob
  /-- 2, a data access reached beyond memory (R173) -/
  | dataOob
  /-- 3, a key index above 15 (R175) -/
  | keyIndex
  deriving DecidableEq, Repr

/-- The fault status (R34): what no program can read and the host can. -/
structure FaultStatus where
  /-- fault_code -/
  code : FaultCode
  /-- fault_pc, the pc_cur of the faulting step -/
  pc : Word
  /-- fault_word, the faulting instruction word, 0 for FETCH_OOB -/
  word : Word
  /-- fault_info, the offending address or key value -/
  info : Word
  deriving DecidableEq, Repr

/-- What the host supplies with one step (R40): keys[15:0], bit k set while key k is down, and rnd[7:0]. -/
structure StepInput where
  keys : BitVec 16
  rnd : Byte
  deriving DecidableEq, Repr

/-- Memory as plain data: the bytes that differ from what reset leaves there, addresses strictly rising. Its reads,
writes and canonical form stand in Machine/Ops.lean. -/
abbrev Memory := List Host.Cell

/-- The framebuffer, 32 rows of 64 pixels, "row-major, addressed [y][x]" (R30). -/
abbrev Screen := Vector (Vector Bool 64) 32

/-- The state of the machine. -/
structure State where
  /-- V[0]-V[15] (R21) -/
  v : Vector Byte 16
  /-- I (R23) -/
  i : Word
  /-- PC (R24) -/
  pc : Word
  /-- SP, the number of occupied stack entries, 0 to 16 (R25; assumption 21) -/
  sp : Fin 17
  /-- stack[0]-stack[15] (R26) -/
  stack : Vector Word 16
  /-- DT, the delay timer (R27) -/
  dt : Byte
  /-- ST, the sound timer (R28) -/
  st : Byte
  /-- mem[0]-mem[4095] (R29) -/
  mem : Memory
  /-- fb (R30) -/
  fb : Screen
  /-- draw, the result of the last step (R31) -/
  draw : Bool
  /-- waiting: the key-wait gate is active (R33) -/
  waiting : Bool
  /-- wait_reg, the register a key is awaited for (R33) -/
  waitReg : Reg
  /-- fault_code, fault_pc, fault_word, fault_info (R34) -/
  fault : FaultStatus
  /-- stack_event (R35) -/
  stackEvent : Bool
  /-- The input sampled for the present step (R32, R90); not the spec's state but an input of the step. -/
  input : StepInput
  /-- MODEL'S OWN (assumption 2): the inputs the host has laid out for the coming steps, the next first. -/
  supplied : List StepInput
  /-- MODEL'S OWN (assumption 2): how many free inputs have been drawn. -/
  freeTick : Nat
  deriving DecidableEq, Repr

/-- The machine right after reset and before an image is loaded (R43, R191): the font in place (memory lists nothing
that differs from it), PC = ENTRY, all else zero. The last three fields are assumption 3. -/
def State.reset : State where
  v := Vector.replicate 16 0
  i := 0
  pc := Config.entry
  sp := 0
  stack := Vector.replicate 16 0
  dt := 0
  st := 0
  mem := []
  fb := Vector.replicate 32 (Vector.replicate 64 false)
  draw := false
  waiting := false
  waitReg := 0
  fault := ⟨.none, 0, 0, 0⟩
  stackEvent := false
  input := ⟨0, 0⟩
  supplied := []
  freeTick := 0

end Sys2Proof.Machine
end

