-- ==== Sys2Proof/Machine/Operands.lean ====
section
/-! DEFINITION. The operand forms of spec/30_encoding.md R68: widened immediates, register ranges, and the data an
operand is turned into (decimal digits, sprite bits). -/

namespace Sys2Proof.Machine

/-- zext_16 of a 12-bit address (R68): what 1nnn, 2nnn, Annn and Bnnn write. -/
def zextAddr (nnn : Addr12) : Word := nnn.setWidth 16

/-- zext_16 of a byte (R68, R107, R142). -/
def zextByte (b : Byte) : Word := b.setWidth 16

/-- The registers V[0]..V[x] that Fx55 and Fx65 name, in rising order (R68, R144, R145). -/
def regsUpTo (x : Reg) : List Reg := (List.range (x.val + 1)).map (Fin.ofNat 16)

/-- The decimal digits of a byte, hundreds, tens, units, one byte each (R143). -/
def bcdDigits (b : Byte) : List Byte :=
  [BitVec.ofNat 8 (b.toNat / 100), BitVec.ofNat 8 (b.toNat / 10 % 10), BitVec.ofNat 8 (b.toNat % 10)]

/-- The bit of a sprite byte that lands j columns right of the sprite's left edge (R152): bit 7 - j by default,
bit j under the other value of SPRITE_BIT_ORDER (assumption 7). -/
def spriteBit (order : Config.SpriteBitOrder) (b : Byte) (j : Nat) : Bool :=
  match order with
  | .msbLeft => b.getLsbD (7 - j)
  | .lsbLeft => b.getLsbD j

/-- Where a sprite pixel lands: the coordinates wrap and never clip (R150). -/
def spriteCol (cx : Byte) (j : Nat) : Fin 64 := Fin.ofNat 64 (cx.toNat + j)

/-- The row a sprite pixel lands on (R150). -/
def spriteRow (cy : Byte) (r : Nat) : Fin 32 := Fin.ofNat 32 (cy.toNat + r)

/-- The key that a snapshot has down and whose number is lowest (R83: "scan key state in ascending key-ID order"). -/
def lowestKey (keys : BitVec 16) : Option Nat := (List.range 16).find? (fun k => keys.getLsbD k)

/-- A byte names a key only up to 15 (R63, R175). -/
def isKey (b : Byte) : Bool := decide (b.toNat ≤ 15)

end Sys2Proof.Machine
end

