-- ==== Sys2Proof/Machine/Ops.lean ====
section
/-! DEFINITION. The named operations on registers, memory, the stack, the framebuffer, the timers, the key-wait gate
and the fault state, each in one place; the meanings are written over them. -/

namespace Sys2Proof.Machine

/-! ### Memory (spec/20_memory.md) -/

/-- What a byte of memory holds while the list does not mention it: what reset leaves there, FONT from address 0 and
0 above it (R46, R191, R192). -/
def initialByte (a : Nat) : Byte := Config.font.getD a 0

/-- The byte at an address (R54: "returns the byte last written"). An address at or above MEM_SIZE is no byte of
memory; every access is checked against that bound before it reads (assumption 26). -/
def Memory.read : Memory → Nat → Byte
  | [], a => initialByte a
  | (b, w) :: rest, a => if a = b then w else Memory.read rest a

/-- Write one byte, keeping the canonical form: a byte that is what reset left there is not listed. -/
def Memory.write : Memory → Nat → Byte → Memory
  | [], a, x => if x = initialByte a then [] else [(a, x)]
  | (b, w) :: rest, a, x =>
    if a < b then (if x = initialByte a then (b, w) :: rest else (a, x) :: (b, w) :: rest)
    else if a = b then (if x = initialByte a then rest else (a, x) :: rest)
    else (b, w) :: Memory.write rest a x

/-- The canonical form from an address on: rising addresses below MEM_SIZE, no byte that is what reset left there. -/
def Memory.wfFrom : Nat → Memory → Bool
  | _, [] => true
  | lo, (a, x) :: rest =>
    decide (lo ≤ a) && decide (a < Config.memSize) && (x != initialByte a) && Memory.wfFrom (a + 1) rest

/-- The canonical form of memory. -/
def Memory.wf (m : Memory) : Bool := Memory.wfFrom 0 m

/-- Write bytes at consecutive addresses, the first at a (R49 MemWrite, R195). -/
def Memory.writeBytes : Memory → Nat → List Byte → Memory
  | m, _, [] => m
  | m, a, x :: xs => Memory.writeBytes (m.write a x) (a + 1) xs

/-- Copy an image to ENTRY; what would lie beyond memory is dropped (R195, R196). -/
def Memory.loadImage (m : Memory) (image : List Byte) : Memory :=
  m.writeBytes Config.entry.toNat (image.take (Config.memSize - Config.entry.toNat))

/-- Whether the n bytes from addr leave memory: n = 0 touches no byte (R49, R152). Addresses are exact (R48). -/
def beyondMemory (addr n : Nat) : Bool := decide (0 < n) && decide (0xFFF < addr + n - 1)

/-- MemRead of one byte. -/
def State.readMem (s : State) (a : Nat) : Byte := s.mem.read a

/-- MemWrite of one byte. -/
def State.writeMem (s : State) (a : Nat) (x : Byte) : State := { s with mem := s.mem.write a x }

/-- MemRead of n bytes, in rising order. -/
def State.readBytes (s : State) (a n : Nat) : List Byte := (List.range n).map (fun k => s.readMem (a + k))

/-- MemWrite of some bytes, in rising order. -/
def State.writeBytes (s : State) (a : Nat) (xs : List Byte) : State := { s with mem := s.mem.writeBytes a xs }

/-- The address an instruction's data access starts at: I, as an exact number (R48). -/
def State.dataAddr (s : State) : Nat := s.i.toNat

/-! ### Registers (spec/10_state.md R21-R24) -/

/-- V[r]. -/
def State.readV (s : State) (r : Reg) : Byte := s.v[r]

/-- V[r] <- b. -/
def State.writeV (s : State) (r : Reg) (b : Byte) : State := { s with v := s.v.set r b }

/-- I <- a. -/
def State.setI (s : State) (a : Word) : State := { s with i := a }

/-- PC <- target (R18, R109: not checked here). -/
def State.jumpTo (s : State) (target : Word) : State := { s with pc := target }

/-- PC <- pc_cur + 2, the end of every instruction that neither skips nor transfers control (R87). -/
def State.advance (s : State) : State := s.jumpTo (s.pc + 2)

/-- The end of a skip instruction (R87): PC <- pc_cur + 4 if the condition holds, else pc_cur + 2. -/
def State.skipIf (s : State) (cond : Bool) : State := if cond then s.jumpTo (s.pc + 4) else s.advance

/-! ### Timers and the key-wait gate (R27, R28, R33) -/

/-- DT <- b (R164). -/
def State.setDT (s : State) (b : Byte) : State := { s with dt := b }

/-- ST <- b (R165). -/
def State.setST (s : State) (b : Byte) : State := { s with st := b }

/-- waiting <- 1; wait_reg <- x (R33, R163). -/
def State.armGate (s : State) (x : Reg) : State := { s with waiting := true, waitReg := x }

/-- V[wait_reg] <- b; waiting <- 0, in one transition (R33, R83). -/
def State.resolveGate (s : State) (b : Byte) : State := { s.writeV s.waitReg b with waiting := false }

/-! ### The fault state (spec/60_exceptions.md R171-R175) -/

/-- raise Fault(code, info): record the code, pc_cur, the word and the info; PC stays pc_cur, nothing else changes
(R174). The state is left by reset alone (R177), so there is no return from it. -/
def State.raise (s : State) (code : FaultCode) (word info : Word) : State :=
  { s with fault := ⟨code, s.pc, word, info⟩ }

/-- The fault_info of a data access from addr: max(addr, 0x1000), the lowest offending address (R49, R171). -/
def dataFaultInfo (addr : Word) : Word := if addr < 0x1000 then 0x1000 else addr

/-- The shared frame of Dxyn, Fx33, Fx55 and Fx65: the whole range of n bytes from I is checked before any access, and
if one of them lies beyond memory the instruction raises DATA_OOB and does nothing else (R49, R53, R173). -/
def State.withDataRange (s : State) (i : Instr) (n : Nat) (body : State → State) : State :=
  if beyondMemory s.dataAddr n then s.raise .dataOob (encode i) (dataFaultInfo s.i) else body s

/-- The shared frame of Ex9E and ExA1: V[x] above 15 raises KEY_INDEX; else skip on the key's level, which body turns
into the condition (R160, R161, R175). -/
def State.withKey (s : State) (i : Instr) (x : Reg) (cond : Bool → Bool) : State :=
  if isKey (s.readV x) then s.skipIf (cond (s.input.keys.getLsbD (s.readV x).toNat))
  else s.raise .keyIndex (encode i) (zextByte (s.readV x))

/-! ### The stack (R25, R26, R62, R178) -/

/-- Push a return address where an entry is free; a full stack is left as it is and stack_event is set (R102). -/
def State.push (s : State) (ret : Word) : State :=
  if h : s.sp.val < 16 then
    { s with stack := s.stack.set s.sp.val ret, sp := ⟨s.sp.val + 1, by omega⟩ }
  else { s with stackEvent := true }

/-- The entry under SP: what a return pops (R100). An empty stack has none. -/
def State.top (s : State) : Option Word :=
  if h : 0 < s.sp.val then some (s.stack[s.sp.val - 1]'(by omega)) else none

/-- Drop the entry under SP; it is not cleared (R100). An empty stack is left as it is and stack_event is set. -/
def State.pop (s : State) : State :=
  if 0 < s.sp.val then { s with sp := ⟨s.sp.val - 1, by omega⟩ } else { s with stackEvent := true }

/-! ### The framebuffer (spec/44_display.md) -/

/-- fb[row][col]. -/
def Screen.pixel (fb : Screen) (row : Fin 32) (col : Fin 64) : Bool := (fb[row])[col]

/-- fb[row][col] <- b. -/
def Screen.setPixel (fb : Screen) (row : Fin 32) (col : Fin 64) (b : Bool) : Screen :=
  fb.set row ((fb[row]).set col b)

/-- Every pixel 0 (R151). -/
def Screen.clear : Screen := Vector.replicate 32 (Vector.replicate 64 false)

/-- Install a framebuffer and flag redraw: draw <- 1 (R151, R152). -/
def State.present (s : State) (fb : Screen) : State := { s with fb := fb, draw := true }

/-- A drawing under way: the framebuffer and whether a pixel has been turned off so far (R152's c). -/
structure Plot where
  fb : Screen
  hit : Bool
  deriving DecidableEq, Repr

/-- One sprite bit onto one pixel: XOR, and a collision where both were 1 (R152). -/
def Plot.bit (p : Plot) (row : Fin 32) (col : Fin 64) (b : Bool) : Plot :=
  ⟨p.fb.setPixel row col (xor (p.fb.pixel row col) b), p.hit || (b && p.fb.pixel row col)⟩

/-- The eight bits of one sprite byte, from the left edge at cx, on one row (R150, R152). -/
def Plot.byte (p : Plot) (order : Config.SpriteBitOrder) (row : Fin 32) (cx : Byte) (b : Byte) : Plot :=
  (List.range 8).foldl (fun q j => q.bit row (spriteCol cx j) (spriteBit order b j)) p

/-- The bytes of a sprite from row r on, each one row lower than the last (R150, R152). -/
def Plot.rows (p : Plot) (order : Config.SpriteBitOrder) (cx cy : Byte) : Nat → List Byte → Plot
  | _, [] => p
  | r, b :: bs => (p.byte order (spriteRow cy r) cx b).rows order cx cy (r + 1) bs

/-- Draw the sprite bytes with the top left at column cx and row cy. -/
def Screen.draw (fb : Screen) (order : Config.SpriteBitOrder) (cx cy : Byte) (bytes : List Byte) : Plot :=
  (Plot.mk fb false).rows order cx cy 0 bytes

/-! ### What surrounds an instruction (spec/40_execution_cycle.md R80-R90) -/

/-- Sample the inputs of a step (R90): the next that the host has laid out, or, where it has laid out none, the next
free value (assumption 2). -/
def State.sample (s : State) : State :=
  match s.supplied with
  | next :: rest => { s with input := next, supplied := rest }
  | [] =>
    { s with input := ⟨Config.freeKeys s.freeTick, Config.freeRnd s.freeTick⟩, freeTick := s.freeTick + 1 }

/-- draw <- 0 at the start of every step (R81). -/
def State.clearDraw (s : State) : State := { s with draw := false }

/-- Whether the core is in the fault state (R82). -/
def State.faulted (s : State) : Bool := s.fault.code != .none

/-- One timer's countdown (R84). -/
def countdown (t : Byte) : Byte := if t = 0 then 0 else t - 1

/-- The timer countdown of an executing step, the two timers independently (R84). -/
def State.tickTimers (s : State) : State := { s with dt := countdown s.dt, st := countdown s.st }

/-- The gate poll (R83): the lowest key that is down goes to V[wait_reg] as a byte and the gate is cleared; with no
key down nothing happens. -/
def State.pollGate (s : State) : State :=
  match lowestKey s.input.keys with
  | some k => s.resolveGate (BitVec.ofNat 8 k)
  | none => s

/-- Whether the fetch at PC leaves memory (R85). -/
def State.fetchBeyond (s : State) : Bool := beyondMemory s.pc.toNat 2

/-- The instruction word at PC and PC + 1, high byte first (R50, R85). -/
def State.fetchWord (s : State) : Word :=
  wordOfBytes (s.readMem s.pc.toNat) (s.readMem (s.pc.toNat + 1))

/-- UNKNOWN: PC <- pc_cur + 2 and nothing else (R88). -/
def State.noop (s : State) : State := s.advance

end Sys2Proof.Machine
end

