-- ==== Sys2Proof/Machine/Flags.lean ====
section
/-! DEFINITION. The flag computations of spec/42_alu.md: VF as carry, as strict greater-than and as the bit shifted
out (R115), and the order in which VF and V[x] are written (R116). -/

namespace Sys2Proof.Machine

/-- A flag as the byte that VF takes: 1 or 0. -/
def flagByte (b : Bool) : Byte := if b then 1 else 0

/-- Carry of 8xy4: the exact sum exceeds 255 (R115, R123). -/
def carryOut (a b : Byte) : Byte := flagByte (decide (255 < a.toNat + b.toNat))

/-- The flag of 8xy5 and 8xy7: strictly greater, so equal operands give 0 (R115, R124, R126). -/
def greater (a b : Byte) : Byte := flagByte (decide (b.toNat < a.toNat))

/-- The bit 8xy6 shifts out: bit 0 (R125). -/
def lowBit (a : Byte) : Byte := flagByte (a.getLsbD 0)

/-- The bit 8xyE shifts out: bit 7 (R127). -/
def highBit (a : Byte) : Byte := flagByte (a.getLsbD 7)

/-- V[x] <- result, then V[0xF] <- flag, both of the registers as they stand: 8xy4 (R123). -/
def State.resultThenFlag (s : State) (x : Reg) (result flag : Byte) : State :=
  (s.writeV x result).writeV Reg.vf flag

/-- The two writes of 8xy5, 8xy6, 8xy7 and 8xyE. In the source's order VF is written first and V[x] is then computed
from the registers after that write (R116); under FLAG_LAST the operands are read first and VF is written last
(assumption 5). -/
def State.flagThenResult (s : State) (order : Config.VfOrder) (x : Reg) (flag : Byte) (result : State → Byte) :
    State :=
  match order with
  | .sourceOrder => (s.writeV Reg.vf flag).writeV x (result (s.writeV Reg.vf flag))
  | .flagLast => s.resultThenFlag x (result s) flag

end Sys2Proof.Machine
end

