-- ==== Sys2Proof/Machine/Alu.lean ====
section
/-! DEFINITION. The register and arithmetic instructions, spec/42_alu.md: unsigned 8-bit, mod 256 (R115). Each ends
with PC <- pc_cur + 2, reads no memory, sets no draw flag and raises no fault. -/

namespace Sys2Proof.Machine

/-- V[x] <- b and PC <- pc_cur + 2: the instructions of this family that write no flag. -/
def State.setAndAdvance (s : State) (x : Reg) (b : Byte) : State := (s.writeV x b).advance

/-- 6xkk LD Vx, byte (R117). -/
def execLdByte (x : Reg) (kk : Byte) (s : State) : Host.Outcome State Fault Refusal :=
  .next (s.setAndAdvance x kk)

/-- 7xkk ADD Vx, byte (R118): VF is not written, even on carry. -/
def execAddByte (x : Reg) (kk : Byte) (s : State) : Host.Outcome State Fault Refusal :=
  .next (s.setAndAdvance x (s.readV x + kk))

/-- 8xy0 LD Vx, Vy (R119). -/
def execLdReg (x y : Reg) (s : State) : Host.Outcome State Fault Refusal :=
  .next (s.setAndAdvance x (s.readV y))

/-- 8xy1 OR Vx, Vy (R120). -/
def execOrReg (x y : Reg) (s : State) : Host.Outcome State Fault Refusal :=
  .next (s.setAndAdvance x (s.readV x ||| s.readV y))

/-- 8xy2 AND Vx, Vy (R121). -/
def execAndReg (x y : Reg) (s : State) : Host.Outcome State Fault Refusal :=
  .next (s.setAndAdvance x (s.readV x &&& s.readV y))

/-- 8xy3 XOR Vx, Vy (R122). -/
def execXorReg (x y : Reg) (s : State) : Host.Outcome State Fault Refusal :=
  .next (s.setAndAdvance x (s.readV x ^^^ s.readV y))

/-- 8xy4 ADD Vx, Vy (R123): V[x], then VF = carry. -/
def execAddReg (x y : Reg) (s : State) : Host.Outcome State Fault Refusal :=
  .next (s.resultThenFlag x (s.readV x + s.readV y) (carryOut (s.readV x) (s.readV y))).advance

/-- 8xy5 SUB Vx, Vy (R124): VF = (V[x] > V[y]), then V[x]. -/
def execSub (x y : Reg) (s : State) : Host.Outcome State Fault Refusal :=
  .next (s.flagThenResult Config.vfOrder x (greater (s.readV x) (s.readV y))
    (fun t => t.readV x - t.readV y)).advance

/-- 8xy6 SHR Vx (R125): VF = bit 0 of V[x], then V[x]; y is decoded and not read. -/
def execShr (x _y : Reg) (s : State) : Host.Outcome State Fault Refusal :=
  .next (s.flagThenResult Config.vfOrder x (lowBit (s.readV x)) (fun t => t.readV x >>> 1)).advance

/-- 8xy7 SUBN Vx, Vy (R126): VF = (V[y] > V[x]), then V[x]. -/
def execSubn (x y : Reg) (s : State) : Host.Outcome State Fault Refusal :=
  .next (s.flagThenResult Config.vfOrder x (greater (s.readV y) (s.readV x))
    (fun t => t.readV y - t.readV x)).advance

/-- 8xyE SHL Vx (R127): VF = bit 7 of V[x], then V[x]; y is decoded and not read. -/
def execShl (x _y : Reg) (s : State) : Host.Outcome State Fault Refusal :=
  .next (s.flagThenResult Config.vfOrder x (highBit (s.readV x)) (fun t => t.readV x <<< 1)).advance

/-- Cxkk RND Vx, byte (R128): this step's random byte, masked. -/
def execRnd (x : Reg) (kk : Byte) (s : State) : Host.Outcome State Fault Refusal :=
  .next (s.setAndAdvance x (s.input.rnd &&& kk))

end Sys2Proof.Machine
end

