-- ==== Sys2Proof/Machine/Display.lean ====
section
/-! DEFINITION. The display instructions, spec/44_display.md. Both set draw and end with PC <- pc_cur + 2, unless
Dxyn raises DATA_OOB. -/

namespace Sys2Proof.Machine

/-- 00E0 CLS (R151). -/
def execCls (s : State) : Host.Outcome State Fault Refusal :=
  .next (s.present Screen.clear).advance

/-- The sprite of a Dxyn: its n bytes at I onto the framebuffer at column V[x], row V[y], all read before any write
(R152; assumption 15). -/
def State.spritePlot (s : State) (x y : Reg) (n : Nibble) : Plot :=
  s.fb.draw Config.spriteBitOrder (s.readV x) (s.readV y) (s.readBytes s.dataAddr n.toNat)

/-- Dxyn DRW Vx, Vy, n (R152): draw by XOR, then VF = 1 iff some pixel went from 1 to 0. -/
def execDrw (x y : Reg) (n : Nibble) (s : State) : Host.Outcome State Fault Refusal :=
  .next (s.withDataRange (.drw x y n) n.toNat fun t =>
    ((t.present (t.spritePlot x y n).fb).writeV Reg.vf (flagByte (t.spritePlot x y n).hit)).advance)

end Sys2Proof.Machine
end

