-- ==== Sys2Proof/Machine/Flow.lean ====
section
/-! DEFINITION. The control flow instructions, spec/41_flow.md. None reads memory, writes VF or sets draw, and none
raises a fault (R109: a target is checked at the next fetch). In every meaning s.pc is pc_cur (R85). -/

namespace Sys2Proof.Machine

/-- 00EE RET (R100): an empty stack advances PC by 2 and sets stack_event; else pop, and PC is the popped address as
it is. -/
def execRet (s : State) : Host.Outcome State Fault Refusal :=
  match s.top with
  | some ret => .next (s.pop.jumpTo ret)
  | none => .next s.pop.advance

/-- 1nnn JP addr (R101). -/
def execJp (nnn : Addr12) (s : State) : Host.Outcome State Fault Refusal :=
  .next (s.jumpTo (zextAddr nnn))

/-- 2nnn CALL addr (R102): a full stack advances PC by 2 and sets stack_event; else push pc_cur + 2 and jump. -/
def execCall (nnn : Addr12) (s : State) : Host.Outcome State Fault Refusal :=
  if s.sp.val = 16 then .next (s.push (s.pc + 2)).advance
  else .next ((s.push (s.pc + 2)).jumpTo (zextAddr nnn))

/-- 3xkk SE Vx, byte (R103). -/
def execSeByte (x : Reg) (kk : Byte) (s : State) : Host.Outcome State Fault Refusal :=
  .next (s.skipIf (s.readV x == kk))

/-- 4xkk SNE Vx, byte (R104). -/
def execSneByte (x : Reg) (kk : Byte) (s : State) : Host.Outcome State Fault Refusal :=
  .next (s.skipIf (s.readV x != kk))

/-- 5xy0 SE Vx, Vy (R105). -/
def execSeReg (x y : Reg) (s : State) : Host.Outcome State Fault Refusal :=
  .next (s.skipIf (s.readV x == s.readV y))

/-- 9xy0 SNE Vx, Vy (R106). -/
def execSneReg (x y : Reg) (s : State) : Host.Outcome State Fault Refusal :=
  .next (s.skipIf (s.readV x != s.readV y))

/-- Bnnn JP V0, addr (R107): the exact sum, at most 0x10FE, not reduced mod 4096. -/
def execJpV0 (nnn : Addr12) (s : State) : Host.Outcome State Fault Refusal :=
  .next (s.jumpTo (zextAddr nnn + zextByte (s.readV 0)))

end Sys2Proof.Machine
end

