-- ==== Sys2Proof/Machine/IndexMemory.lean ====
section
/-! DEFINITION. The index register and memory instructions, spec/43_index_memory.md. Each ends with PC <- pc_cur + 2
unless it raises DATA_OOB, sets no draw flag and writes no flag. -/

namespace Sys2Proof.Machine

/-- What Fx55 and Fx65 leave in I: I itself, or I + x + 1 under the other value of I_INCREMENT (assumption 6). -/
def State.indexAfter (s : State) (inc : Config.IndexIncrement) (x : Reg) : State :=
  match inc with
  | .none => s
  | .xPlusOne => s.setI (s.i + BitVec.ofNat 16 (x.val + 1))

/-- V[k] <- MemRead(I + k, 1) for the registers named, in order (R145). -/
def State.loadRegs (s : State) (rs : List Reg) : State :=
  rs.foldl (fun t k => t.writeV k (t.readMem (t.dataAddr + k.val))) s

/-- MemWrite(I + k, 1, V[k]) for the registers named, in order (R144). -/
def State.storeRegs (s : State) (rs : List Reg) : State :=
  rs.foldl (fun t k => t.writeMem (t.dataAddr + k.val) (t.readV k)) s

/-- Annn LD I, addr (R140). -/
def execLdI (nnn : Addr12) (s : State) : Host.Outcome State Fault Refusal :=
  .next (s.setI (zextAddr nnn)).advance

/-- Fx1E ADD I, Vx (R141): mod 65536, VF is not written. -/
def execAddIVx (x : Reg) (s : State) : Host.Outcome State Fault Refusal :=
  .next (s.setI (s.i + zextByte (s.readV x))).advance

/-- Fx29 LD F, Vx (R142): V[x] x 5, not masked to a digit. -/
def execLdFVx (x : Reg) (s : State) : Host.Outcome State Fault Refusal :=
  .next (s.setI (zextByte (s.readV x) * 5)).advance

/-- Fx33 LD B, Vx (R143): hundreds, tens and units to I, I + 1, I + 2. -/
def execLdBVx (x : Reg) (s : State) : Host.Outcome State Fault Refusal :=
  .next (s.withDataRange (.ldBVx x) 3 fun t => (t.writeBytes t.dataAddr (bcdDigits (t.readV x))).advance)

/-- Fx55 LD [I], Vx (R144): V[0]..V[x] to I..I+x. -/
def execLdMemVx (x : Reg) (s : State) : Host.Outcome State Fault Refusal :=
  .next (s.withDataRange (.ldMemVx x) (x.val + 1) fun t =>
    ((t.storeRegs (regsUpTo x)).indexAfter Config.indexIncrement x).advance)

/-- Fx65 LD Vx, [I] (R145): I..I+x to V[0]..V[x]. -/
def execLdVxMem (x : Reg) (s : State) : Host.Outcome State Fault Refusal :=
  .next (s.withDataRange (.ldVxMem x) (x.val + 1) fun t =>
    ((t.loadRegs (regsUpTo x)).indexAfter Config.indexIncrement x).advance)

end Sys2Proof.Machine
end

