-- ==== Sys2Proof/Machine/KeysTimers.lean ====
section
/-! DEFINITION. The keypad and timer instructions, spec/45_keys_timers.md. The keys are this step's snapshot (R90),
the timers are seen after this step's countdown (R84). None reads memory, writes VF as a flag or sets draw. -/

namespace Sys2Proof.Machine

/-- Ex9E SKP Vx (R160): skip if the key is down; V[x] above 15 raises KEY_INDEX. -/
def execSkp (x : Reg) (s : State) : Host.Outcome State Fault Refusal :=
  .next (s.withKey (.skp x) x (fun down => down))

/-- ExA1 SKNP Vx (R161): skip if the key is up; V[x] above 15 raises KEY_INDEX. -/
def execSknp (x : Reg) (s : State) : Host.Outcome State Fault Refusal :=
  .next (s.withKey (.sknp x) x (fun down => !down))

/-- Fx07 LD Vx, DT (R162). -/
def execLdVxDT (x : Reg) (s : State) : Host.Outcome State Fault Refusal :=
  .next (s.writeV x s.dt).advance

/-- Fx0A LD Vx, K (R163): arm the key-wait gate; V[x] is written by the poll that resolves it. -/
def execLdVxK (x : Reg) (s : State) : Host.Outcome State Fault Refusal :=
  .next (s.armGate x).advance

/-- Fx15 LD DT, Vx (R164). -/
def execLdDTVx (x : Reg) (s : State) : Host.Outcome State Fault Refusal :=
  .next (s.setDT (s.readV x)).advance

/-- Fx18 LD ST, Vx (R165). -/
def execLdSTVx (x : Reg) (s : State) : Host.Outcome State Fault Refusal :=
  .next (s.setST (s.readV x)).advance

end Sys2Proof.Machine
end

