-- ==== Sys2Proof/Machine/Step.lean ====
section
/-! DEFINITION. One step (spec/40_execution_cycle.md R80), and how the host lays an instruction where the next step
fetches it. -/

namespace Sys2Proof.Machine

/-- The state a step starts its work from: this step's inputs sampled (R90) and draw cleared (R81). -/
def State.beginStep (s : State) : State := s.sample.clearDraw

/-- The state an instruction is fetched and executed in: after the timer countdown (R84, R86). -/
def State.beginInstr (s : State) : State := s.beginStep.tickTimers

/-- The instruction path of a step (R85-R88): fetch, decode, execute. -/
def runInstr (s : State) : Host.Outcome State Fault Refusal :=
  if s.fetchBeyond then .next (s.raise .fetchOob 0 s.pc)
  else
    match decode s.fetchWord with
    | .instr i => exec i s
    | .unknown _ => .next s.noop

/-- One step (R80): a faulted core does nothing more (R82), a waiting core polls the gate (R83), any other counts its
timers down and executes one instruction. -/
def step (s : State) : Host.Outcome State Fault Refusal :=
  if s.faulted then .next s.beginStep
  else if s.waiting then .next s.beginStep.pollGate
  else runInstr s.beginInstr

/-- The instruction word of a table row, laid where the next fetch reads it: bits 15..8 at PC, bits 7..0 at PC + 1
(R50), with the bits above nbits zero. Where PC + 1 is beyond memory there is no such place. -/
def State.withFetchWord (s : State) (nbits w : Nat) : State :=
  let word : Word := BitVec.ofNat 16 (w % 2 ^ nbits)
  if s.fetchBeyond then s
  else s.writeBytes s.pc.toNat [word.extractLsb' 8 8, word.extractLsb' 0 8]

end Sys2Proof.Machine
end

