-- ==== Sys2Proof/Machine/HostPort.lean ====
section
/-! DEFINITION. The host's side of the interface (spec/10_state.md R40-R42, spec/70_reset_and_hazards.md R190-R197,
R204): what it does before a run and what it may read between steps. -/

namespace Sys2Proof.Machine

/-- The reset input between two steps (R190): the state of R191 whatever the state before, a faulted or waiting core
included. What the host has laid out, and the place in the stream of free inputs, are the host's and stay, so that no
free value comes twice (assumption 29). -/
def State.hostReset (s : State) : State := { State.reset with supplied := s.supplied, freeTick := s.freeTick }

/-- load (R195, R196): copy an image to ENTRY; nothing but memory changes. -/
def State.load (s : State) (image : List Byte) : State := { s with mem := s.mem.loadImage image }

/-- reset and then the one load that the spec admits, before the first step (R197; assumption 20). -/
def State.boot (image : List Byte) : State := State.reset.load image

/-- The host lays out the inputs of the coming steps (R41; assumption 2). -/
def State.withInputs (s : State) (inputs : List StepInput) : State := { s with supplied := inputs }

/-- fault_code as its 2 bits (R34, R171). -/
def FaultCode.bits : FaultCode → BitVec 2
  | .none => 0
  | .fetchOob => 1
  | .dataOob => 2
  | .keyIndex => 3

/-- The outputs, valid between steps (R40, R42). -/
structure Outputs where
  draw : Bool
  fb : Screen
  st : Byte
  waiting : Bool
  faultCode : BitVec 2
  faultPc : Word
  faultWord : Word
  faultInfo : Word
  stackEvent : Bool
  deriving DecidableEq, Repr

/-- What the host reads between steps (R42). -/
def State.outputs (s : State) : Outputs :=
  { draw := s.draw, fb := s.fb, st := s.st, waiting := s.waiting, faultCode := s.fault.code.bits,
    faultPc := s.fault.pc, faultWord := s.fault.word, faultInfo := s.fault.info, stackEvent := s.stackEvent }

end Sys2Proof.Machine
end

