-- ==== Sys2Proof/Safety.lean ====
section
/-! DEFINITION. The terms the statements use: what a state leaves unchanged of another (frames), what counts as a safe
state, and the invariant of the machine. -/

namespace Sys2Proof

/-! ### Kinds of instruction -/

/-- The instructions that write VF as a flag (R22). -/
def Instr.setsFlag : Instr → Bool
  | .addReg _ _ | .sub _ _ | .shr _ _ | .subn _ _ | .shl _ _ | .drw _ _ _ => true
  | _ => false

/-- Whether V[r] is a destination of an instruction as data (the "written by" column of R37's first rows). -/
def Instr.writesReg (i : Instr) (r : Reg) : Bool :=
  match i with
  | .ldByte x _ | .addByte x _ | .rnd x _ | .ldVxDT x => r == x
  | .ldReg x _ | .orReg x _ | .andReg x _ | .xorReg x _ => r == x
  | .addReg x _ | .sub x _ | .shr x _ | .subn x _ | .shl x _ => r == x
  | .ldVxMem x => decide (r ≤ x)
  | _ => false

/-- How many bytes of memory, from I on, an instruction reads or writes as data (R51, R60). -/
def Instr.dataBytes : Instr → Nat
  | .drw _ _ n => n.toNat
  | .ldBVx _ => 3
  | .ldMemVx x | .ldVxMem x => x.val + 1
  | _ => 0

/-- The fixed digits of an instruction's word: "match" under "mask", the Encoding line of its rule. -/
def Instr.encodedAs (i : Instr) (bits mask : Word) : Prop := encode i &&& mask = bits

/-- Whether an instruction's word tests a key (R63). -/
def Instr.testsKey : Instr → Bool
  | .skp _ | .sknp _ => true
  | _ => false

end Sys2Proof

namespace Sys2Proof.Machine

/-! ### Frames: one predicate for each kind of state -/

/-- Every register but those named is unchanged. -/
def SameRegsBut (rs : List Reg) (s t : State) : Prop := ∀ r : Reg, r ∉ rs → t.readV r = s.readV r

/-- I is unchanged. -/
def SameIndex (s t : State) : Prop := t.i = s.i

/-- SP, every stack entry and stack_event are unchanged. -/
def SameStack (s t : State) : Prop := t.sp = s.sp ∧ t.stack = s.stack ∧ t.stackEvent = s.stackEvent

/-- Both timers are unchanged. -/
def SameTimers (s t : State) : Prop := t.dt = s.dt ∧ t.st = s.st

/-- Every byte of memory outside the n bytes from addr reads as before. -/
def SameMemoryBut (addr n : Nat) (s t : State) : Prop :=
  ∀ a : Nat, a < addr ∨ addr + n ≤ a → t.readMem a = s.readMem a

/-- Every byte of memory reads as before. -/
def SameMemory (s t : State) : Prop := ∀ a : Nat, t.readMem a = s.readMem a

/-- The framebuffer and the draw flag are unchanged. -/
def SameScreen (s t : State) : Prop := t.fb = s.fb ∧ t.draw = s.draw

/-- The key-wait gate is unchanged. -/
def SameGate (s t : State) : Prop := t.waiting = s.waiting ∧ t.waitReg = s.waitReg

/-- The fault status is unchanged. -/
def SameFault (s t : State) : Prop := t.fault = s.fault

/-- The inputs, sampled and to come, are unchanged. -/
def SameInputs (s t : State) : Prop :=
  t.input = s.input ∧ t.supplied = s.supplied ∧ t.freeTick = s.freeTick

/-- Nothing but PC and the registers named may have changed. -/
structure OnlyRegs (rs : List Reg) (s t : State) : Prop where
  regs : SameRegsBut rs s t
  index : SameIndex s t
  stack : SameStack s t
  timers : SameTimers s t
  memory : SameMemory s t
  screen : SameScreen s t
  gate : SameGate s t
  fault : SameFault s t
  inputs : SameInputs s t

/-- Nothing but PC, SP, the stack and stack_event may have changed. -/
structure OnlyStack (s t : State) : Prop where
  regs : SameRegsBut [] s t
  index : SameIndex s t
  timers : SameTimers s t
  memory : SameMemory s t
  screen : SameScreen s t
  gate : SameGate s t
  fault : SameFault s t
  inputs : SameInputs s t

/-- Nothing but PC and I may have changed. -/
structure OnlyIndex (s t : State) : Prop where
  regs : SameRegsBut [] s t
  stack : SameStack s t
  timers : SameTimers s t
  memory : SameMemory s t
  screen : SameScreen s t
  gate : SameGate s t
  fault : SameFault s t
  inputs : SameInputs s t

/-- Nothing but PC and the n bytes of memory from addr may have changed. -/
structure OnlyMemory (addr n : Nat) (s t : State) : Prop where
  regs : SameRegsBut [] s t
  index : SameIndex s t
  stack : SameStack s t
  timers : SameTimers s t
  memory : SameMemoryBut addr n s t
  screen : SameScreen s t
  gate : SameGate s t
  fault : SameFault s t
  inputs : SameInputs s t

/-- Nothing but PC, the framebuffer, draw and the registers named may have changed. -/
structure OnlyScreen (rs : List Reg) (s t : State) : Prop where
  regs : SameRegsBut rs s t
  index : SameIndex s t
  stack : SameStack s t
  timers : SameTimers s t
  memory : SameMemory s t
  gate : SameGate s t
  fault : SameFault s t
  inputs : SameInputs s t

/-- Nothing but PC and the two timers may have changed. -/
structure OnlyTimers (s t : State) : Prop where
  regs : SameRegsBut [] s t
  index : SameIndex s t
  stack : SameStack s t
  memory : SameMemory s t
  screen : SameScreen s t
  gate : SameGate s t
  fault : SameFault s t
  inputs : SameInputs s t

/-- Nothing but PC and the key-wait gate may have changed. -/
structure OnlyGate (s t : State) : Prop where
  regs : SameRegsBut [] s t
  index : SameIndex s t
  stack : SameStack s t
  timers : SameTimers s t
  memory : SameMemory s t
  screen : SameScreen s t
  fault : SameFault s t
  inputs : SameInputs s t

/-- The fault state is entered with this code, word and info (R174): fault_pc is PC, PC stays, nothing else changes. -/
structure EntersFault (code : FaultCode) (word info : Word) (s t : State) : Prop where
  status : t.fault = ⟨code, s.pc, word, info⟩
  pc : t.pc = s.pc
  regs : SameRegsBut [] s t
  index : SameIndex s t
  stack : SameStack s t
  timers : SameTimers s t
  memory : SameMemory s t
  screen : SameScreen s t
  gate : SameGate s t
  inputs : SameInputs s t

/-! ### Kinds of state -/

/-- The core will fetch and execute at its next step: neither faulted nor waiting (R80). -/
def State.running (s : State) : Prop := s.fault.code = .none ∧ s.waiting = false

/-- A run has been clean so far: no fault, no stack overflow or underflow (R34, R35). -/
def State.clean (s : State) : Prop := s.fault.code = .none ∧ s.stackEvent = false

/-- The next step finds an instruction to execute and it is this one: the core runs, the fetch lies in memory, and the
two bytes at PC, the high byte first, decode to it (R80, R85, R86). -/
def State.executes (s : State) (i : Instr) : Prop :=
  s.running ∧ s.pc.toNat ≤ 0xFFE ∧
    decode (wordOfBytes (s.readMem s.pc.toNat) (s.readMem (s.pc.toNat + 1))) = .instr i

/-- The program is stopped: the instruction at PC is a jump to PC itself (R205). -/
def State.stopped (s : State) : Prop := ∃ nnn : Addr12, s.executes (.jp nnn) ∧ nnn.toNat = s.pc.toNat

/-- Some 1 bit of a Dxyn's sprite lands on this pixel: bit 7 - j of the byte at I + r, j columns right of V[x] and r
rows under V[y], both wrapped (R150, R152; the bit order is the spec's D32, assumption 7). -/
def State.spriteCovers (s : State) (x y : Reg) (n : Nibble) (row : Fin 32) (col : Fin 64) : Prop :=
  ∃ r j : Nat, r < n.toNat ∧ j < 8 ∧ row.val = ((s.readV y).toNat + r) % 32 ∧
    col.val = ((s.readV x).toNat + j) % 64 ∧ (s.readMem (s.i.toNat + r)).getLsbD (7 - j) = true

/-! ### The invariant -/

/-- What the fault status holds for each code (R171-R175), for a core whose PC is pc. -/
def FaultStatus.ok (f : FaultStatus) (pc : Word) : Prop :=
  match f.code with
  | .none => f.pc = 0 ∧ f.word = 0 ∧ f.info = 0
  | .fetchOob => f.pc = pc ∧ f.word = 0 ∧ f.info = pc ∧ 0xFFF ≤ pc.toNat
  | .dataOob =>
    f.pc = pc ∧ pc.toNat ≤ 0xFFE ∧ 0x1000 ≤ f.info.toNat ∧
      ∃ i : Instr, decode f.word = .instr i ∧ 0 < i.dataBytes
  | .keyIndex =>
    f.pc = pc ∧ pc.toNat ≤ 0xFFE ∧ 16 ≤ f.info.toNat ∧ f.info.toNat ≤ 255 ∧
      ∃ i : Instr, decode f.word = .instr i ∧ i.testsKey = true

/-- The invariant of the machine. -/
structure State.Inv (s : State) : Prop where
  /-- Memory is in canonical form. -/
  memory : s.mem.wf = true
  /-- "every reachable value is at most 0x10FE, from Bnnn" (R24) -/
  pcBound : s.pc.toNat ≤ 0x10FE
  /-- "The value pushed is at most 0xFFE + 2 = 0x1000" (R102). -/
  stackBound : ∀ k : Fin 16, (s.stack[k]).toNat ≤ 0x1000
  /-- The fault status is one that R171-R175 allow. -/
  faultRecord : s.fault.ok s.pc
  /-- A faulted core is not waiting (R176) and has draw = 0 (R174). -/
  faultQuiet : s.fault.code ≠ .none → s.waiting = false ∧ s.draw = false

end Sys2Proof.Machine
end

