-- ==== Sys2Proof/Certificates/Slice0/Obligations.lean ====
section
/-! DEFINITION. The statements for the provers. "The next step finds an instruction" is State.executes; the frames
(OnlyRegs, OnlyStack, …) are Safety.lean's. In a statement about exec, s.pc is pc_cur (spec/40_execution_cycle.md R85).
Where a statement rests on a decision of the spec's own (spec/92_eei_decisions.md D<n>) or on a choice of the model
(assumption n), its docstring says so. -/

open Sys2Proof Sys2Proof.Machine

/-! ### Encoding -/

/-- Words written out from 30_encoding.md R66-R72 (the rows X1-X22 of 95_test_vectors.md; the literal nibbles are
D20, assumption 17). -/
def Obligations.SpecWordsDecodeToTheirInstructions : Prop :=
  decode 0x00E0 = .instr .cls ∧ decode 0x00EE = .instr .ret ∧ decode 0x00E1 = .unknown 0x00E1 ∧
  decode 0x0000 = .unknown 0x0000 ∧ decode 0x1ABC = .instr (.jp 0xABC) ∧ decode 0x2345 = .instr (.call 0x345) ∧
  decode 0x5120 = .instr (.seReg 1 2) ∧ decode 0x5121 = .unknown 0x5121 ∧
  decode 0x8AB4 = .instr (.addReg 0xA 0xB) ∧ decode 0x8AB8 = .unknown 0x8AB8 ∧
  decode 0xD12F = .instr (.drw 1 2 0xF) ∧ decode 0xE19E = .instr (.skp 1) ∧ decode 0xE19F = .unknown 0xE19F ∧
  decode 0xF165 = .instr (.ldVxMem 1) ∧ decode 0xC0FF = .instr (.rnd 0 0xFF)

/-- Decoding an encoded well-formed outcome gives it back, for all 34 instructions with every operand and for every
UNKNOWN word (30_encoding.md sections 1-4; literal nibbles D20). -/
def Obligations.DecodeInvertsEncode : Prop :=
  ∀ d : Decoded, d.wf = true → decode (encodeDecoded d) = d

/-- The other direction: every one of the 65536 words is the word of what it decodes to, and what it decodes to is
well-formed (R67, R77: the decoder is total and maps every word to exactly one outcome). -/
def Obligations.EveryWordEncodesItsDecode : Prop :=
  ∀ w : Word, encodeDecoded (decode w) = w ∧ (decode w).wf = true

/-- R71: a word is the instruction of a row of the opcode map exactly if it agrees with the row's match under its
mask. -/
def Obligations.DecodeFollowsOpcodeMap : Prop :=
  opcodeTable.length = 34 ∧
  ∀ r ∈ opcodeTable, ∀ w : Word, (∃ i, decode w = .instr i ∧ rowOf i = r) ↔ w &&& r.mask = r.bits

/-- No word fits two rows (R70), and a word is UNKNOWN exactly if it fits none, which is exactly R72's table of
spaces. -/
def Obligations.RowsDisjointUnknownOutside : Prop :=
  opcodeTable.Pairwise (fun r r' => ∀ w : Word, ¬ (r.hits w = true ∧ r'.hits w = true)) ∧
  (∀ w : Word, decode w = .unknown w ↔ ∀ r ∈ opcodeTable, r.hits w = false) ∧
  (∀ w : Word, decode w = .unknown w ↔ inUnknownSpace w = true)

/-! ### The step -/

/-- What a step does before anything else (R80, R81, R84, R90): beginStep takes the next input the host laid out, or a
free one if there is none (the model's own form, assumption 2), and clears draw; beginInstr counts the timers down as
well. Nothing else changes. -/
def Obligations.StepBeginsWithInputDrawAndTimers : Prop :=
  ∀ s : State,
    (∀ inp rest, s.supplied = inp :: rest →
      s.beginStep.input = inp ∧ s.beginStep.supplied = rest ∧ s.beginStep.freeTick = s.freeTick) ∧
    (s.supplied = [] → s.beginStep.supplied = [] ∧ s.beginStep.freeTick = s.freeTick + 1) ∧
    s.beginStep.draw = false ∧ s.beginStep.fb = s.fb ∧ s.beginStep.pc = s.pc ∧
    SameRegsBut [] s s.beginStep ∧ SameIndex s s.beginStep ∧ SameStack s s.beginStep ∧ SameTimers s s.beginStep ∧
    SameMemory s s.beginStep ∧ SameGate s s.beginStep ∧ SameFault s s.beginStep ∧
    s.beginInstr.dt.toNat = s.dt.toNat - 1 ∧ s.beginInstr.st.toNat = s.st.toNat - 1 ∧
    s.beginInstr.pc = s.pc ∧ OnlyTimers s.beginStep s.beginInstr

/-- A step runs the decoded instruction: where the two bytes at PC decode to an instruction, the step is exec of it in
the state beginInstr describes (R80, R85, R86). PC may be odd (R52), and no move past the word is added: each
meaning sets PC itself (R87). -/
def Obligations.StepRunsTheDecodedInstruction : Prop :=
  ∀ (s : State) (i : Instr), s.running → s.pc.toNat ≤ 0xFFE →
    decode (wordOfBytes (s.readMem s.pc.toNat) (s.readMem (s.pc.toNat + 1))) = .instr i →
    step s = exec i s.beginInstr

/-- R88: a word of R72's UNKNOWN space advances PC by 2 and does nothing else; the countdown before it has happened. -/
def Obligations.UnknownWordOnlyAdvancesPc : Prop :=
  ∀ s : State, s.running → s.pc.toNat ≤ 0xFFE →
    inUnknownSpace (wordOfBytes (s.readMem s.pc.toNat) (s.readMem (s.pc.toNat + 1))) = true →
    ∃ t, step s = .next t ∧ t.pc = s.pc + 2 ∧ t.dt.toNat = s.dt.toNat - 1 ∧ t.st.toNat = s.st.toNat - 1 ∧
      t.draw = false ∧ t.fb = s.fb ∧ SameRegsBut [] s t ∧ SameIndex s t ∧ SameStack s t ∧ SameMemory s t ∧
      SameGate s t ∧ SameFault s t

/-- A faulted core performs no work (R82; the spec's own choice D23): every register, memory byte, pixel, timer and
status keeps its value, and draw is 0. -/
def Obligations.FaultedCoreDoesNothing : Prop :=
  ∀ s : State, s.fault.code ≠ .none →
    ∃ t, step s = .next t ∧ t.draw = false ∧ t.fb = s.fb ∧ t.pc = s.pc ∧ SameRegsBut [] s t ∧ SameIndex s t ∧
      SameStack s t ∧ SameTimers s t ∧ SameMemory s t ∧ SameGate s t ∧ SameFault s t

/-- The gate poll (R83; PC after the gate is D3): with no key down nothing changes; else the lowest key that is down is
written to V[wait_reg], the gate is cleared, and nothing else changes, PC and timers included. -/
def Obligations.GatePollTakesLowestKey : Prop :=
  ∀ s : State, s.fault.code = .none → s.waiting = true →
    (s.beginStep.input.keys = 0 → step s = .next s.beginStep) ∧
    (∀ k : Fin 16, s.beginStep.input.keys.getLsbD k.val = true →
      (∀ j : Fin 16, j < k → s.beginStep.input.keys.getLsbD j.val = false) →
      ∃ t, step s = .next t ∧ (t.readV s.waitReg).toNat = k.val ∧ t.waiting = false ∧ t.waitReg = s.waitReg ∧
        t.pc = s.pc ∧ t.draw = false ∧ t.fb = s.fb ∧ SameRegsBut [s.waitReg] s t ∧ SameIndex s t ∧ SameStack s t ∧
        SameTimers s t ∧ SameMemory s t ∧ SameFault s t)

/-- A waiting core whose next n inputs hold no key stays as it is for n steps, timers included (R83, R186; property Q9
of 95_test_vectors.md): only draw is cleared and the inputs are consumed. -/
def Obligations.WaitingCoreIsFrozenWithoutKeys : Prop :=
  ∀ (n : Nat) (s : State) (ins rest : List StepInput), s.fault.code = .none → s.waiting = true →
    s.supplied = ins ++ rest → ins.length = n → (∀ i ∈ ins, i.keys = 0) →
    ∃ t, Host.Core.run Sys2Proof.core n s = .next t ∧ t.supplied = rest ∧ t.waiting = true ∧ t.pc = s.pc ∧
      t.fb = s.fb ∧ SameRegsBut [] s t ∧ SameIndex s t ∧ SameStack s t ∧ SameTimers s t ∧ SameMemory s t ∧
      SameGate s t ∧ SameFault s t

/-- The timers over any step (R84; on a faulting step D28): a core that is not running keeps them; a running one counts
each down by 1 from above 0, unless the step executes the one instruction that sets it. -/
def Obligations.TimersCountExecutedSteps : Prop :=
  ∀ s t : State, step s = .next t →
    (¬ s.running → t.dt = s.dt ∧ t.st = s.st) ∧
    (s.running → (∀ x, ¬ s.executes (.ldDTVx x)) → t.dt.toNat = s.dt.toNat - 1) ∧
    (s.running → (∀ x, ¬ s.executes (.ldSTVx x)) → t.st.toNat = s.st.toNat - 1) ∧
    (∀ x, s.executes (.ldDTVx x) → t.dt = s.readV x) ∧ (∀ x, s.executes (.ldSTVx x) → t.st = s.readV x)

/-- A tone lasts as many executing steps as ST holds (R92): along n running steps, none of which sets ST, ST falls from
v to v - n and no further than 0. -/
def Obligations.ToneLastsItsCount : Prop :=
  ∀ (n : Nat) (f : Nat → State),
    (∀ k, k < n → (f k).running ∧ (∀ x, ¬ (f k).executes (.ldSTVx x)) ∧ step (f k) = .next (f (k + 1))) →
    (f n).st.toNat = (f 0).st.toNat - n

/-- A fetch beyond memory raises FETCH_OOB (R172; D6) and keeps the countdown (D28): the rest is the state the step
began its instruction in. -/
def Obligations.FetchBeyondMemoryFaults : Prop :=
  ∀ s : State, s.running → 0xFFF ≤ s.pc.toNat →
    ∃ t, step s = .next t ∧ EntersFault .fetchOob 0 s.pc s.beginInstr t

/-- Every step answers a next state (R91, R170: the per-step contract is total). -/
def Obligations.EveryStepAnswersNext : Prop := ∀ s : State, ∃ t, step s = .next t

/-- A running core faults in a step exactly on the conditions of R171 (D6, D8), at most one of them, FETCH_OOB
first (R176). -/
def Obligations.FaultsExactlyOnTheirConditions : Prop :=
  ∀ s : State, s.running → ∃ t, step s = .next t ∧
    (t.fault.code = .fetchOob ↔ 0xFFF ≤ s.pc.toNat) ∧
    (t.fault.code = .dataOob ↔
      ∃ i, s.executes i ∧ 0 < i.dataBytes ∧ 0xFFF < s.i.toNat + i.dataBytes - 1) ∧
    (t.fault.code = .keyIndex ↔ ∃ x, (s.executes (.skp x) ∨ s.executes (.sknp x)) ∧ 15 < (s.readV x).toNat)

/-- The draw flag after a step (R31, R91; D16): set exactly if the step executed 00E0, or a Dxyn that did not fault. -/
def Obligations.DrawFlagTellsDisplayInstruction : Prop :=
  ∀ s : State, ∃ t, step s = .next t ∧
    (t.draw = true ↔ s.executes .cls ∨
      ∃ x y n, s.executes (.drw x y n) ∧ (n.toNat = 0 ∨ s.i.toNat + n.toNat - 1 ≤ 0xFFF))

/-- The fault status and stack_event are sticky over every step (R34, R35; D7, D23), and stack_event rises only on a
call with a full stack or a return with an empty one. -/
def Obligations.FaultAndStackEventAreSticky : Prop :=
  ∀ s t : State, step s = .next t →
    (s.fault.code ≠ .none → t.fault = s.fault) ∧ (s.stackEvent = true → t.stackEvent = true) ∧
    (s.stackEvent = false → t.stackEvent = true →
      (s.executes .ret ∧ s.sp.val = 0) ∨ ∃ nnn, s.executes (.call nnn) ∧ s.sp.val = 16)

/-- A program stopped on a self-jump stays stopped: each step changes nothing but the timers, draw and the inputs
(R205; the definition of a stop is D2). -/
def Obligations.SelfJumpStaysStopped : Prop :=
  ∀ s : State, s.stopped → ∃ t, step s = .next t ∧ t.stopped ∧ t.pc = s.pc ∧ t.draw = false ∧ t.fb = s.fb ∧
    SameRegsBut [] s t ∧ SameIndex s t ∧ SameStack s t ∧ SameMemory s t ∧ SameGate s t ∧ SameFault s t

/-! ### Control flow -/

/-- R101. -/
def Obligations.JumpSetsPc : Prop :=
  ∀ (nnn : Addr12) (s : State), (Instr.jp nnn).encodedAs 0x1000 0xF000 ∧
    ∃ t, exec (.jp nnn) s = .next t ∧ t.pc.toNat = nnn.toNat ∧ OnlyRegs [] s t

/-- Bnnn: the exact sum of nnn and V0, never reduced mod 4096 (R107; D13). -/
def Obligations.JumpV0AddsExactly : Prop :=
  ∀ (nnn : Addr12) (s : State),
    ∃ t, exec (.jpV0 nnn) s = .next t ∧ t.pc.toNat = nnn.toNat + (s.readV 0).toNat ∧ OnlyRegs [] s t

/-- 2nnn (R102; the pushed value is D29, the overflow policy D7): below depth 16 the call pushes pc_cur + 2 and jumps;
at 16 it advances by 2 and sets stack_event, SP and stack unchanged. -/
def Obligations.CallPushesReturnAddress : Prop :=
  ∀ (nnn : Addr12) (s : State),
    (∀ h : s.sp.val < 16, ∃ t, exec (.call nnn) s = .next t ∧ t.pc.toNat = nnn.toNat ∧ t.sp.val = s.sp.val + 1 ∧
      t.stack[s.sp.val] = s.pc + 2 ∧ (∀ k : Fin 16, k.val ≠ s.sp.val → t.stack[k] = s.stack[k]) ∧
      t.stackEvent = s.stackEvent ∧ OnlyStack s t) ∧
    (s.sp.val = 16 → ∃ t, exec (.call nnn) s = .next t ∧ t.pc = s.pc + 2 ∧ t.sp = s.sp ∧ t.stack = s.stack ∧
      t.stackEvent = true ∧ OnlyStack s t)

/-- 00EE (R100; the underflow policy is D7): SP falls by 1 and PC is the popped entry as it is, the stack unchanged;
with SP = 0 it advances by 2 and sets stack_event. -/
def Obligations.ReturnPopsAddress : Prop :=
  ∀ s : State,
    (∀ h : 0 < s.sp.val, ∃ t, exec .ret s = .next t ∧ t.sp.val + 1 = s.sp.val ∧
      t.pc = s.stack[s.sp.val - 1]'(Nat.lt_of_lt_of_le (Nat.sub_lt h Nat.one_pos) (Nat.le_of_lt_succ s.sp.isLt)) ∧
      t.stack = s.stack ∧ t.stackEvent = s.stackEvent ∧ OnlyStack s t) ∧
    (s.sp.val = 0 → ∃ t, exec .ret s = .next t ∧ t.pc = s.pc + 2 ∧ t.sp = s.sp ∧ t.stack = s.stack ∧
      t.stackEvent = true ∧ OnlyStack s t)

/-- A call and the return that finds the stack as the call left it: PC is the address after the call and SP is as
before it (R100, R102, R108; D29). -/
def Obligations.ReturnComesBackAfterTheCall : Prop :=
  ∀ (nnn : Addr12) (s t : State), s.sp.val < 16 → exec (.call nnn) s = .next t →
    ∀ u : State, u.sp = t.sp → u.stack = t.stack →
      ∃ w, exec .ret u = .next w ∧ w.pc = s.pc + 2 ∧ w.sp = s.sp

/-- R103 and R104: a taken skip is pc_cur + 4, else pc_cur + 2; nothing else changes. -/
def Obligations.SkipOnImmediate : Prop :=
  ∀ (x : Reg) (kk : Byte) (s : State),
    (Instr.seByte x kk).encodedAs 0x3000 0xF000 ∧ (Instr.sneByte x kk).encodedAs 0x4000 0xF000 ∧
    (∃ t, exec (.seByte x kk) s = .next t ∧ OnlyRegs [] s t ∧
      (s.readV x = kk → t.pc = s.pc + 4) ∧ (s.readV x ≠ kk → t.pc = s.pc + 2)) ∧
    (∃ t, exec (.sneByte x kk) s = .next t ∧ OnlyRegs [] s t ∧
      (s.readV x ≠ kk → t.pc = s.pc + 4) ∧ (s.readV x = kk → t.pc = s.pc + 2))

/-- R105 and R106, with the words of the two families that are UNKNOWN. -/
def Obligations.SkipOnRegisters : Prop :=
  ∀ (x y : Reg) (s : State),
    (Instr.seReg x y).encodedAs 0x5000 0xF00F ∧ (Instr.sneReg x y).encodedAs 0x9000 0xF00F ∧
    (∀ w : Word, w.toNat / 4096 = 5 ∨ w.toNat / 4096 = 9 → w.toNat % 16 ≠ 0 → decode w = .unknown w) ∧
    (∃ t, exec (.seReg x y) s = .next t ∧ OnlyRegs [] s t ∧
      (s.readV x = s.readV y → t.pc = s.pc + 4) ∧ (s.readV x ≠ s.readV y → t.pc = s.pc + 2)) ∧
    (∃ t, exec (.sneReg x y) s = .next t ∧ OnlyRegs [] s t ∧
      (s.readV x ≠ s.readV y → t.pc = s.pc + 4) ∧ (s.readV x = s.readV y → t.pc = s.pc + 2))

/-! ### Registers and arithmetic -/

/-- R117, R118, R119: load immediate, add immediate without a flag, copy. -/
def Obligations.LoadAndAddImmediate : Prop :=
  ∀ (x y : Reg) (kk : Byte) (s : State),
    (Instr.ldByte x kk).encodedAs 0x6000 0xF000 ∧ (Instr.addByte x kk).encodedAs 0x7000 0xF000 ∧
    (Instr.ldReg x y).encodedAs 0x8000 0xF00F ∧
    (∃ t, exec (.ldByte x kk) s = .next t ∧ t.readV x = kk ∧ t.pc = s.pc + 2 ∧ OnlyRegs [x] s t) ∧
    (∃ t, exec (.addByte x kk) s = .next t ∧ (t.readV x).toNat = ((s.readV x).toNat + kk.toNat) % 256 ∧
      t.pc = s.pc + 2 ∧ OnlyRegs [x] s t) ∧
    (∃ t, exec (.ldReg x y) s = .next t ∧ t.readV x = s.readV y ∧ t.pc = s.pc + 2 ∧ OnlyRegs [x] s t)

/-- R120, R121, R122, bit by bit; VF changes only as the destination. -/
def Obligations.BitwiseOperations : Prop :=
  ∀ (x y : Reg) (s : State),
    (Instr.orReg x y).encodedAs 0x8001 0xF00F ∧ (Instr.andReg x y).encodedAs 0x8002 0xF00F ∧
    (Instr.xorReg x y).encodedAs 0x8003 0xF00F ∧
    (∃ t, exec (.orReg x y) s = .next t ∧ t.pc = s.pc + 2 ∧ OnlyRegs [x] s t ∧
      ∀ k, (t.readV x).getLsbD k = ((s.readV x).getLsbD k || (s.readV y).getLsbD k)) ∧
    (∃ t, exec (.andReg x y) s = .next t ∧ t.pc = s.pc + 2 ∧ OnlyRegs [x] s t ∧
      ∀ k, (t.readV x).getLsbD k = ((s.readV x).getLsbD k && (s.readV y).getLsbD k)) ∧
    (∃ t, exec (.xorReg x y) s = .next t ∧ t.pc = s.pc + 2 ∧ OnlyRegs [x] s t ∧
      ∀ k, (t.readV x).getLsbD k = ((s.readV x).getLsbD k ^^ (s.readV y).getLsbD k))

/-- R123: the sum mod 256 in V[x], then the carry in VF; with x = F the carry is what VF ends as, with y = F the old VF
is the addend. -/
def Obligations.AddWritesSumThenCarry : Prop :=
  ∀ (x y : Reg) (s : State), (Instr.addReg x y).encodedAs 0x8004 0xF00F ∧
    ∃ t, exec (.addReg x y) s = .next t ∧ t.pc = s.pc + 2 ∧ OnlyRegs [x, Reg.vf] s t ∧
      (x ≠ Reg.vf → (t.readV x).toNat = ((s.readV x).toNat + (s.readV y).toNat) % 256) ∧
      (255 < (s.readV x).toNat + (s.readV y).toNat → t.readV Reg.vf = 1) ∧
      ((s.readV x).toNat + (s.readV y).toNat ≤ 255 → t.readV Reg.vf = 0)

/-- 8xy5 (R124; operands that are VF by the order of writes, D4, assumption 5): f = 1 iff V[x] > V[y]; VF takes f, then
V[x] the difference of the registers as they then stand. -/
def Obligations.SubWritesFlagThenDifference : Prop :=
  ∀ (x y : Reg) (s : State) (f : Nat),
    ((s.readV y).toNat < (s.readV x).toNat → f = 1) → ((s.readV x).toNat ≤ (s.readV y).toNat → f = 0) →
    ∃ t, exec (.sub x y) s = .next t ∧ t.pc = s.pc + 2 ∧ OnlyRegs [x, Reg.vf] s t ∧
      (x ≠ Reg.vf → (t.readV Reg.vf).toNat = f) ∧
      (x ≠ Reg.vf → y ≠ Reg.vf →
        (t.readV x).toNat = ((s.readV x).toNat + 256 - (s.readV y).toNat) % 256) ∧
      (x ≠ Reg.vf → y = Reg.vf → (t.readV x).toNat = ((s.readV x).toNat + 256 - f) % 256) ∧
      (x = Reg.vf → y ≠ Reg.vf → (t.readV x).toNat = (f + 256 - (s.readV y).toNat) % 256) ∧
      (x = Reg.vf → y = Reg.vf → t.readV x = 0)

/-- 8xy7 (R126; operands that are VF by the order of writes, D4, assumption 5): f = 1 iff V[y] > V[x]; VF takes f, then
V[x] the difference of the registers as they then stand. -/
def Obligations.SubnWritesFlagThenDifference : Prop :=
  ∀ (x y : Reg) (s : State) (f : Nat),
    ((s.readV x).toNat < (s.readV y).toNat → f = 1) → ((s.readV y).toNat ≤ (s.readV x).toNat → f = 0) →
    ∃ t, exec (.subn x y) s = .next t ∧ t.pc = s.pc + 2 ∧ OnlyRegs [x, Reg.vf] s t ∧
      (x ≠ Reg.vf → (t.readV Reg.vf).toNat = f) ∧
      (x ≠ Reg.vf → y ≠ Reg.vf →
        (t.readV x).toNat = ((s.readV y).toNat + 256 - (s.readV x).toNat) % 256) ∧
      (x ≠ Reg.vf → y = Reg.vf → (t.readV x).toNat = (f + 256 - (s.readV x).toNat) % 256) ∧
      (x = Reg.vf → y ≠ Reg.vf → (t.readV x).toNat = ((s.readV y).toNat + 256 - f) % 256) ∧
      (x = Reg.vf → y = Reg.vf → t.readV x = 0)

/-- 8xy6 and 8xyE (R125, R127; x = F by the order of writes, D4, assumption 5): the bit shifted out in VF, then V[x]
shifted by one; V[y] is not read, so y does not matter. -/
def Obligations.ShiftsMoveOneBitIntoFlag : Prop :=
  ∀ (x y : Reg) (s : State),
    (∃ t, exec (.shr x y) s = .next t ∧ t.pc = s.pc + 2 ∧ OnlyRegs [x, Reg.vf] s t ∧
      (x ≠ Reg.vf → (t.readV Reg.vf).toNat = (s.readV x).toNat % 2 ∧ (t.readV x).toNat = (s.readV x).toNat / 2) ∧
      (x = Reg.vf → t.readV Reg.vf = 0)) ∧
    (∃ t, exec (.shl x y) s = .next t ∧ t.pc = s.pc + 2 ∧ OnlyRegs [x, Reg.vf] s t ∧
      (x ≠ Reg.vf → (t.readV Reg.vf).toNat = (s.readV x).toNat / 128 ∧
        (t.readV x).toNat = 2 * (s.readV x).toNat % 256) ∧
      (x = Reg.vf → (t.readV Reg.vf).toNat = 2 * ((s.readV x).toNat / 128)))

/-- Cxkk (R128; rnd is an input of the step, D14): each bit of V[x] is that bit of rnd where kk has a 1, and 0
elsewhere. It holds for every random byte. -/
def Obligations.RandomByteIsMasked : Prop :=
  ∀ (x : Reg) (kk : Byte) (s : State),
    ∃ t, exec (.rnd x kk) s = .next t ∧ t.pc = s.pc + 2 ∧ OnlyRegs [x] s t ∧
      ∀ k, (t.readV x).getLsbD k = (s.input.rnd.getLsbD k && kk.getLsbD k)

/-! ### Index register and memory -/

/-- R140. -/
def Obligations.LoadIndexImmediate : Prop :=
  ∀ (nnn : Addr12) (s : State), (Instr.ldI nnn).encodedAs 0xA000 0xF000 ∧
    ∃ t, exec (.ldI nnn) s = .next t ∧ t.i.toNat = nnn.toNat ∧ t.pc = s.pc + 2 ∧ OnlyIndex s t

/-- Fx1E and Fx29 (R141, R142; mod 65536 is D9, no masking of the digit D10). -/
def Obligations.IndexArithmetic : Prop :=
  ∀ (x : Reg) (s : State),
    (∃ t, exec (.addIVx x) s = .next t ∧ t.i.toNat = (s.i.toNat + (s.readV x).toNat) % 65536 ∧
      t.pc = s.pc + 2 ∧ OnlyIndex s t) ∧
    (∃ t, exec (.ldFVx x) s = .next t ∧ t.i.toNat = (s.readV x).toNat * 5 ∧ t.pc = s.pc + 2 ∧ OnlyIndex s t)

/-- Fx33 (R143; the bound is D6) from a canonical memory: hundreds, tens and units at I, I + 1, I + 2, and nothing but
those three bytes and PC changes. -/
def Obligations.StoreBcdWritesThreeDigits : Prop :=
  ∀ (x : Reg) (s : State), s.mem.wf = true → s.i.toNat + 2 ≤ 0xFFF →
    ∃ t, exec (.ldBVx x) s = .next t ∧ t.pc = s.pc + 2 ∧ OnlyMemory s.i.toNat 3 s t ∧
      (t.readMem s.i.toNat).toNat = (s.readV x).toNat / 100 ∧
      (t.readMem (s.i.toNat + 1)).toNat = (s.readV x).toNat / 10 % 10 ∧
      (t.readMem (s.i.toNat + 2)).toNat = (s.readV x).toNat % 10

/-- Fx55 (R144; I unchanged is D11, the bound D6) from a canonical memory: V[k] at I + k for k up to x, and nothing but
those bytes and PC changes. -/
def Obligations.StoreRegistersWritesRange : Prop :=
  ∀ (x : Reg) (s : State), s.mem.wf = true → s.i.toNat + x.val ≤ 0xFFF →
    ∃ t, exec (.ldMemVx x) s = .next t ∧ t.pc = s.pc + 2 ∧ OnlyMemory s.i.toNat (x.val + 1) s t ∧
      ∀ k : Reg, k ≤ x → t.readMem (s.i.toNat + k.val) = s.readV k

/-- Fx65 (R145; I unchanged is D11, the bound D6): V[k] from I + k for k up to x; the registers above x and everything
else but PC are unchanged. -/
def Obligations.LoadRegistersReadsRange : Prop :=
  ∀ (x : Reg) (s : State), s.i.toNat + x.val ≤ 0xFFF →
    ∃ t, exec (.ldVxMem x) s = .next t ∧ t.pc = s.pc + 2 ∧
      (∀ k : Reg, k ≤ x → t.readV k = s.readMem (s.i.toNat + k.val)) ∧
      (∀ k : Reg, x < k → t.readV k = s.readV k) ∧
      SameIndex s t ∧ SameStack s t ∧ SameTimers s t ∧ SameMemory s t ∧ SameScreen s t ∧ SameGate s t ∧
      SameFault s t ∧ SameInputs s t

/-- Fx55, then Fx65 with the same x in any state that has the same I and the stored bytes, restores the registers (Q5 of
95_test_vectors.md; D11). -/
def Obligations.StoreThenLoadRestoresRegisters : Prop :=
  ∀ (x : Reg) (s : State), s.mem.wf = true → s.i.toNat + x.val ≤ 0xFFF →
    ∃ t, exec (.ldMemVx x) s = .next t ∧
      ∀ u : State, u.i = t.i → (∀ k : Reg, k ≤ x → u.readMem (s.i.toNat + k.val) = t.readMem (s.i.toNat + k.val)) →
        ∃ w, exec (.ldVxMem x) u = .next w ∧ w.i = s.i ∧ ∀ k : Reg, k ≤ x → w.readV k = s.readV k

/-- A byte stored is fetched by the very next step (R58, R201; D22): after an Fx55 that stores V[k] and V[k + 1] over the
word at pc_cur + 2, the next step runs what those two registers encode. -/
def Obligations.NextFetchSeesStoredCode : Prop :=
  ∀ (x k : Reg) (s : State) (i : Instr), s.mem.wf = true → s.i.toNat + x.val ≤ 0xFFF → s.executes (.ldMemVx x) →
    ∀ h : k.val + 1 ≤ x.val, s.i.toNat + k.val = s.pc.toNat + 2 →
    decode (wordOfBytes (s.readV k) (s.readV ⟨k.val + 1, Nat.lt_of_le_of_lt h x.isLt⟩)) = .instr i →
    ∃ t, step s = .next t ∧ t.executes i ∧ step t = exec i t.beginInstr

/-- A data range that leaves memory (R49, R53, R173, R174; D6): DATA_OOB with the instruction's own word and
max(I, 0x1000), and nothing else changes; addresses do not wrap (R48). -/
def Obligations.DataBeyondMemoryFaults : Prop :=
  ∀ (i : Instr) (s : State), 0 < i.dataBytes → 0xFFF < s.i.toNat + i.dataBytes - 1 →
    ∃ t info, exec i s = .next t ∧ EntersFault .dataOob (encode i) info s t ∧
      info.toNat = max s.i.toNat 0x1000

/-! ### Display -/

/-- R151: every pixel 0, draw 1, whatever was there. -/
def Obligations.ClearScreenClearsAllPixels : Prop :=
  ∀ s : State, encode .cls = 0x00E0 ∧ Instr.cls.encodedAs 0x00E0 0xFFFF ∧
    ∃ t, exec .cls s = .next t ∧ (∀ row col, t.fb.pixel row col = false) ∧ t.draw = true ∧ t.pc = s.pc + 2 ∧
      OnlyScreen [] s t

/-- Dxyn in closed form (R150, R152; latched operands D5, bit order D32): each pixel is its old value XOR whether a 1 bit
of the sprite lands on it, with wrap-around; VF is 1 if some pixel went from 1 to 0, else 0; draw is 1. -/
def Obligations.DrawXorsTheWrappedSprite : Prop :=
  ∀ (x y : Reg) (n : Nibble) (s : State), n.toNat = 0 ∨ s.i.toNat + n.toNat - 1 ≤ 0xFFF →
    ∃ t, exec (.drw x y n) s = .next t ∧
      (∀ row col, s.spriteCovers x y n row col → t.fb.pixel row col = !(s.fb.pixel row col)) ∧
      (∀ row col, ¬ s.spriteCovers x y n row col → t.fb.pixel row col = s.fb.pixel row col) ∧
      ((∃ row col, s.fb.pixel row col = true ∧ t.fb.pixel row col = false) → t.readV Reg.vf = 1) ∧
      ((∀ row col, s.fb.pixel row col = true → t.fb.pixel row col = true) → t.readV Reg.vf = 0) ∧
      t.draw = true ∧ t.pc = s.pc + 2 ∧ OnlyScreen [Reg.vf] s t

/-- Drawing the same sprite twice from registers other than VF restores the framebuffer (Q7 of 95_test_vectors.md), and
the second draw sets VF to 1 exactly if some 1 bit of the sprite met a pixel that was 0 before the first draw, by the
instruction's rule R152 (assumption 33; bit order D32). -/
def Obligations.DrawTwiceRestoresTheScreen : Prop :=
  ∀ (x y : Reg) (n : Nibble) (s : State), x ≠ Reg.vf → y ≠ Reg.vf → n.toNat = 0 ∨ s.i.toNat + n.toNat - 1 ≤ 0xFFF →
    ∃ t u, exec (.drw x y n) s = .next t ∧ exec (.drw x y n) t = .next u ∧ u.fb = s.fb ∧
      ((∃ row col, s.spriteCovers x y n row col ∧ s.fb.pixel row col = false) → u.readV Reg.vf = 1) ∧
      ((∀ row col, s.spriteCovers x y n row col → s.fb.pixel row col = true) → u.readV Reg.vf = 0)

/-- The sentence of R152's corner cases and 90_conflicts.md C10 taken literally: a sprite with a 1 bit, drawn twice, sets
VF = 1 on the second draw. EXPECTED TO FAIL by R152's own rule: where every 1 bit meets a pixel that is 1 before the
first draw, the second draw turns no pixel off (assumption 33). -/
def Obligations.SecondDrawAlwaysCollides : Prop :=
  ∀ (x y : Reg) (n : Nibble) (s : State), x ≠ Reg.vf → y ≠ Reg.vf → 0 < n.toNat → s.i.toNat + n.toNat - 1 ≤ 0xFFF →
    (∃ r, r < n.toNat ∧ s.readMem (s.i.toNat + r) ≠ 0) →
    ∃ t u, exec (.drw x y n) s = .next t ∧ exec (.drw x y n) t = .next u ∧ u.readV Reg.vf = 1

/-! ### Keys and timers -/

/-- Ex9E and ExA1 (R160, R161, R175; the fault on an index above 15 is D8). -/
def Obligations.SkipOnKeyLevel : Prop :=
  ∀ (x : Reg) (s : State),
    ((s.readV x).toNat ≤ 15 →
      (∃ t, exec (.skp x) s = .next t ∧ OnlyRegs [] s t ∧
        (s.input.keys.getLsbD (s.readV x).toNat = true → t.pc = s.pc + 4) ∧
        (s.input.keys.getLsbD (s.readV x).toNat = false → t.pc = s.pc + 2)) ∧
      (∃ t, exec (.sknp x) s = .next t ∧ OnlyRegs [] s t ∧
        (s.input.keys.getLsbD (s.readV x).toNat = false → t.pc = s.pc + 4) ∧
        (s.input.keys.getLsbD (s.readV x).toNat = true → t.pc = s.pc + 2))) ∧
    (15 < (s.readV x).toNat →
      (∃ t info, exec (.skp x) s = .next t ∧ EntersFault .keyIndex (encode (.skp x)) info s t ∧
        info.toNat = (s.readV x).toNat) ∧
      (∃ t info, exec (.sknp x) s = .next t ∧ EntersFault .keyIndex (encode (.sknp x)) info s t ∧
        info.toNat = (s.readV x).toNat))

/-- R164 and R165: the timer takes V[x], at the level of the step too, where the countdown came before it; the other
timer has been counted down. -/
def Obligations.SetTimersFromRegister : Prop :=
  ∀ (x : Reg) (s : State),
    (Instr.ldDTVx x).encodedAs 0xF015 0xF0FF ∧ (Instr.ldSTVx x).encodedAs 0xF018 0xF0FF ∧
    (∃ t, exec (.ldDTVx x) s = .next t ∧ t.dt = s.readV x ∧ t.st = s.st ∧ t.pc = s.pc + 2 ∧ OnlyTimers s t) ∧
    (∃ t, exec (.ldSTVx x) s = .next t ∧ t.st = s.readV x ∧ t.dt = s.dt ∧ t.pc = s.pc + 2 ∧ OnlyTimers s t) ∧
    (s.executes (.ldDTVx x) → ∃ t, step s = .next t ∧ t.dt = s.readV x ∧ t.st.toNat = s.st.toNat - 1) ∧
    (s.executes (.ldSTVx x) → ∃ t, step s = .next t ∧ t.st = s.readV x ∧ t.dt.toNat = s.dt.toNat - 1)

/-- Fx07 (R162): V[x] takes DT, which the step has counted down before. -/
def Obligations.ReadDelayTimerAfterCountdown : Prop :=
  ∀ (x : Reg) (s : State),
    (∃ t, exec (.ldVxDT x) s = .next t ∧ t.readV x = s.dt ∧ t.pc = s.pc + 2 ∧ OnlyRegs [x] s t) ∧
    (s.executes (.ldVxDT x) → ∃ t, step s = .next t ∧ (t.readV x).toNat = s.dt.toNat - 1)

/-- Fx0A (R163; PC + 2 is D3): the gate is armed for x, V[x] keeps its value, and the gate is not polled in this step
whatever keys are down. -/
def Obligations.WaitForKeyArmsTheGate : Prop :=
  ∀ (x : Reg) (s : State),
    (∃ t, exec (.ldVxK x) s = .next t ∧ t.waiting = true ∧ t.waitReg = x ∧ t.pc = s.pc + 2 ∧ OnlyGate s t) ∧
    (s.executes (.ldVxK x) → ∃ t, step s = .next t ∧ t.waiting = true ∧ t.waitReg = x ∧ SameRegsBut [] s t)

/-! ### Rules of the whole machine -/

/-- R22 and the register rows of R37: an instruction changes a register only as its destination, or VF as a flag, and
the flag setters are the six of R22. -/
def Obligations.RegistersChangeOnlyAsDestinations : Prop :=
  ∀ (i : Instr) (s t : State) (r : Reg), exec i s = .next t → t.readV r ≠ s.readV r →
    i.writesReg r = true ∨ (r = Reg.vf ∧ i.setsFlag = true)

/-- The other rows of R37: which instructions may change I, the stack, the timers, memory, the framebuffer and draw, the
gate and the fault status; no instruction changes the inputs. -/
def Obligations.StateChangesOnlyByItsWriters : Prop :=
  ∀ (i : Instr) (s t : State), exec i s = .next t →
    (t.i ≠ s.i → (∃ nnn, i = .ldI nnn) ∨ (∃ x, i = .addIVx x) ∨ ∃ x, i = .ldFVx x) ∧
    (¬ SameStack s t → (∃ nnn, i = .call nnn) ∨ i = .ret) ∧
    (t.dt ≠ s.dt → ∃ x, i = .ldDTVx x) ∧ (t.st ≠ s.st → ∃ x, i = .ldSTVx x) ∧
    (¬ SameMemory s t → (∃ x, i = .ldBVx x) ∨ ∃ x, i = .ldMemVx x) ∧
    (¬ SameScreen s t → i = .cls ∨ ∃ x y n, i = .drw x y n) ∧
    (¬ SameGate s t → ∃ x, i = .ldVxK x) ∧
    (¬ SameFault s t → 0 < i.dataBytes ∨ i.testsKey = true) ∧ SameInputs s t

/-- R90: the key snapshot is read by no instruction but Ex9E and ExA1, and the random byte by none but Cxkk: with the
input replaced, every other instruction does the same. -/
def Obligations.InputsReadOnlyWhereSaid : Prop :=
  ∀ (i : Instr) (s t : State) (keys : BitVec 16) (rnd : Byte), exec i s = .next t →
    (i.testsKey = false → exec i { s with input := ⟨keys, s.input.rnd⟩ } =
      .next { t with input := ⟨keys, s.input.rnd⟩ }) ∧
    ((∀ x kk, i ≠ .rnd x kk) → exec i { s with input := ⟨s.input.keys, rnd⟩ } =
      .next { t with input := ⟨s.input.keys, rnd⟩ })

/-! ### Reset, load and the invariant -/

/-- R43: every element of the state at reset. Config.font is the parameter FONT. -/
def Obligations.ResetStateIsConstructed : Prop :=
  (∀ r, State.reset.readV r = 0) ∧ State.reset.i = 0 ∧ State.reset.pc = 0x200 ∧ State.reset.sp.val = 0 ∧
  (∀ k : Fin 16, State.reset.stack[k] = 0) ∧ State.reset.dt = 0 ∧ State.reset.st = 0 ∧ Config.font.length = 80 ∧
  (∀ a : Nat, ∀ h : a < Config.font.length, State.reset.readMem a = Config.font[a]) ∧
  (∀ a : Nat, 80 ≤ a → a < 4096 → State.reset.readMem a = 0) ∧
  (∀ row col, State.reset.fb.pixel row col = false) ∧ State.reset.draw = false ∧ State.reset.waiting = false ∧
  State.reset.waitReg = 0 ∧ State.reset.fault = ⟨.none, 0, 0, 0⟩ ∧ State.reset.fault.code.bits = 0 ∧
  State.reset.stackEvent = false

/-- The load (R195, R196; only between reset and the first step, D19): byte k of the image at 0x200 + k while that lies
in memory, the rest of the image dropped, every other byte and everything else as reset left it. -/
def Obligations.LoadCopiesImageAndTruncates : Prop :=
  ∀ image : List Byte,
    (∀ k : Nat, ∀ h : k < image.length, 0x200 + k ≤ 0xFFF → (State.boot image).readMem (0x200 + k) = image[k]) ∧
    (∀ a : Nat, a < 0x200 ∨ 0x200 + image.length ≤ a ∨ 0xFFF < a →
      (State.boot image).readMem a = State.reset.readMem a) ∧
    (State.boot image).mem.wf = true ∧ State.boot image = { State.reset with mem := (State.boot image).mem }

/-- The invariant holds after reset and after the load of any image. -/
def Obligations.InvariantHoldsAtBoot : Prop :=
  State.reset.Inv ∧ ∀ image : List Byte, (State.boot image).Inv

/-- Every step keeps the invariant: memory canonical, PC at most 0x10FE (R24), stack entries at most 0x1000 (R102), the
fault status one that R171-R175 allow, a faulted core quiet (R174, R176). It rests on the spec's decisions D6, D7, D8,
D13, D23, D29. -/
def Obligations.EveryStepKeepsInvariant : Prop :=
  ∀ s t : State, s.Inv → step s = .next t → t.Inv
end

