-- ==== Sys2Proof/Laws/Decode.lean ====
section
/-! SUPPORT. Encoded words and their fields as numbers (spec/30_encoding.md R66, R69): extracting a field from a word
built by one of the formats gives the field back, and a row's mask keeps the fixed digits of its words. -/

namespace Sys2Proof

/-! ### Words and fields as numbers -/

/-- An appended word as a number. -/
theorem toNat_append_eq {n m : Nat} (a : BitVec n) (b : BitVec m) :
    (a ++ b).toNat = a.toNat * 2 ^ m + b.toNat := by
  rw [BitVec.toNat_append, ← Nat.shiftLeft_add_eq_or_of_lt b.isLt, Nat.shiftLeft_eq]

/-- A word of format ADDR as a number. -/
theorem encAddr_toNat (op : Nibble) (nnn : Addr12) : (encAddr op nnn).toNat = op.toNat * 4096 + nnn.toNat :=
  toNat_append_eq op nnn

/-- A word of format XKK or XS as a number. -/
theorem encXkk_toNat (op : Nibble) (x : Reg) (kk : Byte) :
    (encXkk op x kk).toNat = op.toNat * 4096 + x.val * 256 + kk.toNat := by
  have h1 := toNat_append_eq (op ++ regField x) kk
  have h2 := toNat_append_eq op (regField x)
  have h3 : (regField x).toNat = x.val := rfl
  have h : (encXkk op x kk).toNat = (op ++ regField x ++ kk).toNat := rfl
  rw [h, h1, h2, h3]; omega

/-- A word of format XYS or XYN as a number. -/
theorem encXyn_toNat (op : Nibble) (x y : Reg) (n : Nibble) :
    (encXyn op x y n).toNat = op.toNat * 4096 + x.val * 256 + y.val * 16 + n.toNat := by
  have h1 := toNat_append_eq (op ++ regField x ++ regField y) n
  have h2 := toNat_append_eq (op ++ regField x) (regField y)
  have h3 := toNat_append_eq op (regField x)
  have h4 : (regField x).toNat = x.val := rfl
  have h5 : (regField y).toNat = y.val := rfl
  have h : (encXyn op x y n).toNat = (op ++ regField x ++ regField y ++ n).toNat := rfl
  rw [h, h1, h2, h3, h4, h5]; omega

/-- op as a number. -/
theorem opField_toNat (w : Word) : (opField w).toNat = w.toNat / 4096 := by
  have := w.isLt
  simp only [opField, BitVec.extractLsb'_toNat, Nat.shiftRight_eq_div_pow]; omega

/-- x as a number. -/
theorem xField_val (w : Word) : (xField w).val = w.toNat / 256 % 16 := by
  show (w.extractLsb' 8 4).toNat = _
  simp only [BitVec.extractLsb'_toNat, Nat.shiftRight_eq_div_pow]

/-- y as a number. -/
theorem yField_val (w : Word) : (yField w).val = w.toNat / 16 % 16 := by
  show (w.extractLsb' 4 4).toNat = _
  simp only [BitVec.extractLsb'_toNat, Nat.shiftRight_eq_div_pow]

/-- n as a number. -/
theorem nField_toNat (w : Word) : (nField w).toNat = w.toNat % 16 := by
  simp only [nField, BitVec.extractLsb'_toNat, Nat.shiftRight_eq_div_pow]; omega

/-- kk as a number. -/
theorem kkField_toNat (w : Word) : (kkField w).toNat = w.toNat % 256 := by
  simp only [kkField, BitVec.extractLsb'_toNat, Nat.shiftRight_eq_div_pow]; omega

/-- nnn as a number. -/
theorem nnnField_toNat (w : Word) : (nnnField w).toNat = w.toNat % 4096 := by
  simp only [nnnField, BitVec.extractLsb'_toNat, Nat.shiftRight_eq_div_pow]; omega

/-! ### A field of an encoded word -/

@[simp] theorem opField_encAddr (op : Nibble) (nnn : Addr12) : opField (encAddr op nnn) = op := by
  apply BitVec.eq_of_toNat_eq
  rw [opField_toNat, encAddr_toNat]
  have := op.isLt
  have := nnn.isLt
  omega

@[simp] theorem nnnField_encAddr (op : Nibble) (nnn : Addr12) : nnnField (encAddr op nnn) = nnn := by
  apply BitVec.eq_of_toNat_eq
  rw [nnnField_toNat, encAddr_toNat]
  have := op.isLt
  have := nnn.isLt
  omega

@[simp] theorem opField_encXkk (op : Nibble) (x : Reg) (kk : Byte) : opField (encXkk op x kk) = op := by
  apply BitVec.eq_of_toNat_eq
  rw [opField_toNat, encXkk_toNat]
  have := op.isLt
  have := x.isLt
  have := kk.isLt
  omega

@[simp] theorem xField_encXkk (op : Nibble) (x : Reg) (kk : Byte) : xField (encXkk op x kk) = x := by
  apply Fin.ext
  rw [xField_val, encXkk_toNat]
  have := op.isLt
  have := x.isLt
  have := kk.isLt
  omega

@[simp] theorem kkField_encXkk (op : Nibble) (x : Reg) (kk : Byte) : kkField (encXkk op x kk) = kk := by
  apply BitVec.eq_of_toNat_eq
  rw [kkField_toNat, encXkk_toNat]
  have := op.isLt
  have := x.isLt
  have := kk.isLt
  omega

@[simp] theorem opField_encXyn (op : Nibble) (x y : Reg) (n : Nibble) : opField (encXyn op x y n) = op := by
  apply BitVec.eq_of_toNat_eq
  rw [opField_toNat, encXyn_toNat]
  have := op.isLt
  have := x.isLt
  have := y.isLt
  have := n.isLt
  omega

@[simp] theorem xField_encXyn (op : Nibble) (x y : Reg) (n : Nibble) : xField (encXyn op x y n) = x := by
  apply Fin.ext
  rw [xField_val, encXyn_toNat]
  have := op.isLt
  have := x.isLt
  have := y.isLt
  have := n.isLt
  omega

@[simp] theorem yField_encXyn (op : Nibble) (x y : Reg) (n : Nibble) : yField (encXyn op x y n) = y := by
  apply Fin.ext
  rw [yField_val, encXyn_toNat]
  have := op.isLt
  have := x.isLt
  have := y.isLt
  have := n.isLt
  omega

@[simp] theorem nField_encXyn (op : Nibble) (x y : Reg) (n : Nibble) : nField (encXyn op x y n) = n := by
  apply BitVec.eq_of_toNat_eq
  rw [nField_toNat, encXyn_toNat]
  have := op.isLt
  have := x.isLt
  have := y.isLt
  have := n.isLt
  omega

/-! ### What a mask keeps -/

/-- A literal digit of a mask keeps a nibble. -/
theorem nibble_and_ones (a : Nibble) : a &&& 0xF#4 = a := BitVec.and_allOnes (x := a)

/-- Two literal digits of a mask keep a byte. -/
theorem byte_and_ones (a : Byte) : a &&& 0xFF#8 = a := BitVec.and_allOnes (x := a)

/-- The mask of format ADDR keeps op. -/
theorem encAddr_and_F000 (op : Nibble) (nnn : Addr12) : encAddr op nnn &&& 0xF000 = encAddr op 0 := by
  have h : encAddr op nnn &&& (0xF#4 ++ 0#12 : BitVec 16) = (op &&& 0xF#4) ++ (nnn &&& 0#12) := by
    simp only [encAddr]; rw [← BitVec.and_append]
  rw [nibble_and_ones, BitVec.and_zero] at h
  exact h

/-- The mask of format XS keeps op and the low byte. -/
theorem encXkk_and_F0FF (op : Nibble) (x : Reg) (kk : Byte) : encXkk op x kk &&& 0xF0FF = encXkk op 0 kk := by
  have h : encXkk op x kk &&& (0xF#4 ++ 0#4 ++ 0xFF#8 : BitVec 16) = (op &&& 0xF#4) ++ (regField x &&& 0#4) ++ (kk &&& 0xFF#8) := by
    simp only [encXkk]; rw [← BitVec.and_append, ← BitVec.and_append]
  rw [nibble_and_ones, BitVec.and_zero, byte_and_ones] at h
  exact h

/-- The mask of format XKK keeps op. -/
theorem encXkk_and_F000 (op : Nibble) (x : Reg) (kk : Byte) : encXkk op x kk &&& 0xF000 = encXkk op 0 0 := by
  have h : encXkk op x kk &&& (0xF#4 ++ 0#4 ++ 0#8 : BitVec 16) = (op &&& 0xF#4) ++ (regField x &&& 0#4) ++ (kk &&& 0#8) := by
    simp only [encXkk]; rw [← BitVec.and_append, ← BitVec.and_append]
  rw [nibble_and_ones, BitVec.and_zero, BitVec.and_zero] at h
  exact h

/-- The mask of format XYS keeps op and the low digit. -/
theorem encXyn_and_F00F (op : Nibble) (x y : Reg) (n : Nibble) : encXyn op x y n &&& 0xF00F = encXyn op 0 0 n := by
  have h : encXyn op x y n &&& (0xF#4 ++ 0#4 ++ 0#4 ++ 0xF#4 : BitVec 16) =
      (op &&& 0xF#4) ++ (regField x &&& 0#4) ++ (regField y &&& 0#4) ++ (n &&& 0xF#4) := by
    simp only [encXyn]; rw [← BitVec.and_append, ← BitVec.and_append, ← BitVec.and_append]
  rw [nibble_and_ones, nibble_and_ones, BitVec.and_zero, BitVec.and_zero] at h
  exact h

/-- The mask of format XYN keeps op. -/
theorem encXyn_and_F000 (op : Nibble) (x y : Reg) (n : Nibble) : encXyn op x y n &&& 0xF000 = encXyn op 0 0 0 := by
  have h : encXyn op x y n &&& (0xF#4 ++ 0#4 ++ 0#4 ++ 0#4 : BitVec 16) =
      (op &&& 0xF#4) ++ (regField x &&& 0#4) ++ (regField y &&& 0#4) ++ (n &&& 0#4) := by
    simp only [encXyn]; rw [← BitVec.and_append, ← BitVec.and_append, ← BitVec.and_append]
  rw [nibble_and_ones, BitVec.and_zero, BitVec.and_zero, BitVec.and_zero] at h
  exact h

end Sys2Proof
end

