-- ==== Sys2Proof/Laws/State.lean ====
section
/-! SUPPORT. One lemma per field per update: what each update of Machine/Ops.lean leaves in each field of State. -/

namespace Sys2Proof.Machine

/-! ### writeV -/

@[simp] theorem State.writeV_v (s : State) (r : Reg) (b : Byte) : (s.writeV r b).v = s.v.set r b := rfl
@[simp] theorem State.writeV_i (s : State) (r : Reg) (b : Byte) : (s.writeV r b).i = s.i := rfl
@[simp] theorem State.writeV_pc (s : State) (r : Reg) (b : Byte) : (s.writeV r b).pc = s.pc := rfl
@[simp] theorem State.writeV_sp (s : State) (r : Reg) (b : Byte) : (s.writeV r b).sp = s.sp := rfl
@[simp] theorem State.writeV_stack (s : State) (r : Reg) (b : Byte) : (s.writeV r b).stack = s.stack := rfl
@[simp] theorem State.writeV_dt (s : State) (r : Reg) (b : Byte) : (s.writeV r b).dt = s.dt := rfl
@[simp] theorem State.writeV_st (s : State) (r : Reg) (b : Byte) : (s.writeV r b).st = s.st := rfl
@[simp] theorem State.writeV_mem (s : State) (r : Reg) (b : Byte) : (s.writeV r b).mem = s.mem := rfl
@[simp] theorem State.writeV_fb (s : State) (r : Reg) (b : Byte) : (s.writeV r b).fb = s.fb := rfl
@[simp] theorem State.writeV_draw (s : State) (r : Reg) (b : Byte) : (s.writeV r b).draw = s.draw := rfl
@[simp] theorem State.writeV_waiting (s : State) (r : Reg) (b : Byte) : (s.writeV r b).waiting = s.waiting := rfl
@[simp] theorem State.writeV_waitReg (s : State) (r : Reg) (b : Byte) : (s.writeV r b).waitReg = s.waitReg := rfl
@[simp] theorem State.writeV_fault (s : State) (r : Reg) (b : Byte) : (s.writeV r b).fault = s.fault := rfl
@[simp] theorem State.writeV_stackEvent (s : State) (r : Reg) (b : Byte) : (s.writeV r b).stackEvent = s.stackEvent := rfl
@[simp] theorem State.writeV_input (s : State) (r : Reg) (b : Byte) : (s.writeV r b).input = s.input := rfl
@[simp] theorem State.writeV_supplied (s : State) (r : Reg) (b : Byte) : (s.writeV r b).supplied = s.supplied := rfl
@[simp] theorem State.writeV_freeTick (s : State) (r : Reg) (b : Byte) : (s.writeV r b).freeTick = s.freeTick := rfl
@[simp] theorem State.readMem_writeV (s : State) (r : Reg) (b : Byte) (m : Nat) : (s.writeV r b).readMem m = s.readMem m := rfl

/-! ### setI -/

@[simp] theorem State.setI_v (s : State) (a : Word) : (s.setI a).v = s.v := rfl
@[simp] theorem State.setI_i (s : State) (a : Word) : (s.setI a).i = a := rfl
@[simp] theorem State.setI_pc (s : State) (a : Word) : (s.setI a).pc = s.pc := rfl
@[simp] theorem State.setI_sp (s : State) (a : Word) : (s.setI a).sp = s.sp := rfl
@[simp] theorem State.setI_stack (s : State) (a : Word) : (s.setI a).stack = s.stack := rfl
@[simp] theorem State.setI_dt (s : State) (a : Word) : (s.setI a).dt = s.dt := rfl
@[simp] theorem State.setI_st (s : State) (a : Word) : (s.setI a).st = s.st := rfl
@[simp] theorem State.setI_mem (s : State) (a : Word) : (s.setI a).mem = s.mem := rfl
@[simp] theorem State.setI_fb (s : State) (a : Word) : (s.setI a).fb = s.fb := rfl
@[simp] theorem State.setI_draw (s : State) (a : Word) : (s.setI a).draw = s.draw := rfl
@[simp] theorem State.setI_waiting (s : State) (a : Word) : (s.setI a).waiting = s.waiting := rfl
@[simp] theorem State.setI_waitReg (s : State) (a : Word) : (s.setI a).waitReg = s.waitReg := rfl
@[simp] theorem State.setI_fault (s : State) (a : Word) : (s.setI a).fault = s.fault := rfl
@[simp] theorem State.setI_stackEvent (s : State) (a : Word) : (s.setI a).stackEvent = s.stackEvent := rfl
@[simp] theorem State.setI_input (s : State) (a : Word) : (s.setI a).input = s.input := rfl
@[simp] theorem State.setI_supplied (s : State) (a : Word) : (s.setI a).supplied = s.supplied := rfl
@[simp] theorem State.setI_freeTick (s : State) (a : Word) : (s.setI a).freeTick = s.freeTick := rfl
@[simp] theorem State.readV_setI (s : State) (a : Word) (q : Reg) : (s.setI a).readV q = s.readV q := rfl
@[simp] theorem State.readMem_setI (s : State) (a : Word) (m : Nat) : (s.setI a).readMem m = s.readMem m := rfl

/-! ### jumpTo -/

@[simp] theorem State.jumpTo_v (s : State) (a : Word) : (s.jumpTo a).v = s.v := rfl
@[simp] theorem State.jumpTo_i (s : State) (a : Word) : (s.jumpTo a).i = s.i := rfl
@[simp] theorem State.jumpTo_pc (s : State) (a : Word) : (s.jumpTo a).pc = a := rfl
@[simp] theorem State.jumpTo_sp (s : State) (a : Word) : (s.jumpTo a).sp = s.sp := rfl
@[simp] theorem State.jumpTo_stack (s : State) (a : Word) : (s.jumpTo a).stack = s.stack := rfl
@[simp] theorem State.jumpTo_dt (s : State) (a : Word) : (s.jumpTo a).dt = s.dt := rfl
@[simp] theorem State.jumpTo_st (s : State) (a : Word) : (s.jumpTo a).st = s.st := rfl
@[simp] theorem State.jumpTo_mem (s : State) (a : Word) : (s.jumpTo a).mem = s.mem := rfl
@[simp] theorem State.jumpTo_fb (s : State) (a : Word) : (s.jumpTo a).fb = s.fb := rfl
@[simp] theorem State.jumpTo_draw (s : State) (a : Word) : (s.jumpTo a).draw = s.draw := rfl
@[simp] theorem State.jumpTo_waiting (s : State) (a : Word) : (s.jumpTo a).waiting = s.waiting := rfl
@[simp] theorem State.jumpTo_waitReg (s : State) (a : Word) : (s.jumpTo a).waitReg = s.waitReg := rfl
@[simp] theorem State.jumpTo_fault (s : State) (a : Word) : (s.jumpTo a).fault = s.fault := rfl
@[simp] theorem State.jumpTo_stackEvent (s : State) (a : Word) : (s.jumpTo a).stackEvent = s.stackEvent := rfl
@[simp] theorem State.jumpTo_input (s : State) (a : Word) : (s.jumpTo a).input = s.input := rfl
@[simp] theorem State.jumpTo_supplied (s : State) (a : Word) : (s.jumpTo a).supplied = s.supplied := rfl
@[simp] theorem State.jumpTo_freeTick (s : State) (a : Word) : (s.jumpTo a).freeTick = s.freeTick := rfl
@[simp] theorem State.readV_jumpTo (s : State) (a : Word) (q : Reg) : (s.jumpTo a).readV q = s.readV q := rfl
@[simp] theorem State.readMem_jumpTo (s : State) (a : Word) (m : Nat) : (s.jumpTo a).readMem m = s.readMem m := rfl

/-! ### advance -/

@[simp] theorem State.advance_v (s : State) : s.advance.v = s.v := rfl
@[simp] theorem State.advance_i (s : State) : s.advance.i = s.i := rfl
@[simp] theorem State.advance_pc (s : State) : s.advance.pc = s.pc + 2 := rfl
@[simp] theorem State.advance_sp (s : State) : s.advance.sp = s.sp := rfl
@[simp] theorem State.advance_stack (s : State) : s.advance.stack = s.stack := rfl
@[simp] theorem State.advance_dt (s : State) : s.advance.dt = s.dt := rfl
@[simp] theorem State.advance_st (s : State) : s.advance.st = s.st := rfl
@[simp] theorem State.advance_mem (s : State) : s.advance.mem = s.mem := rfl
@[simp] theorem State.advance_fb (s : State) : s.advance.fb = s.fb := rfl
@[simp] theorem State.advance_draw (s : State) : s.advance.draw = s.draw := rfl
@[simp] theorem State.advance_waiting (s : State) : s.advance.waiting = s.waiting := rfl
@[simp] theorem State.advance_waitReg (s : State) : s.advance.waitReg = s.waitReg := rfl
@[simp] theorem State.advance_fault (s : State) : s.advance.fault = s.fault := rfl
@[simp] theorem State.advance_stackEvent (s : State) : s.advance.stackEvent = s.stackEvent := rfl
@[simp] theorem State.advance_input (s : State) : s.advance.input = s.input := rfl
@[simp] theorem State.advance_supplied (s : State) : s.advance.supplied = s.supplied := rfl
@[simp] theorem State.advance_freeTick (s : State) : s.advance.freeTick = s.freeTick := rfl
@[simp] theorem State.readV_advance (s : State) (q : Reg) : s.advance.readV q = s.readV q := rfl
@[simp] theorem State.readMem_advance (s : State) (m : Nat) : s.advance.readMem m = s.readMem m := rfl

/-! ### setDT -/

@[simp] theorem State.setDT_v (s : State) (b : Byte) : (s.setDT b).v = s.v := rfl
@[simp] theorem State.setDT_i (s : State) (b : Byte) : (s.setDT b).i = s.i := rfl
@[simp] theorem State.setDT_pc (s : State) (b : Byte) : (s.setDT b).pc = s.pc := rfl
@[simp] theorem State.setDT_sp (s : State) (b : Byte) : (s.setDT b).sp = s.sp := rfl
@[simp] theorem State.setDT_stack (s : State) (b : Byte) : (s.setDT b).stack = s.stack := rfl
@[simp] theorem State.setDT_dt (s : State) (b : Byte) : (s.setDT b).dt = b := rfl
@[simp] theorem State.setDT_st (s : State) (b : Byte) : (s.setDT b).st = s.st := rfl
@[simp] theorem State.setDT_mem (s : State) (b : Byte) : (s.setDT b).mem = s.mem := rfl
@[simp] theorem State.setDT_fb (s : State) (b : Byte) : (s.setDT b).fb = s.fb := rfl
@[simp] theorem State.setDT_draw (s : State) (b : Byte) : (s.setDT b).draw = s.draw := rfl
@[simp] theorem State.setDT_waiting (s : State) (b : Byte) : (s.setDT b).waiting = s.waiting := rfl
@[simp] theorem State.setDT_waitReg (s : State) (b : Byte) : (s.setDT b).waitReg = s.waitReg := rfl
@[simp] theorem State.setDT_fault (s : State) (b : Byte) : (s.setDT b).fault = s.fault := rfl
@[simp] theorem State.setDT_stackEvent (s : State) (b : Byte) : (s.setDT b).stackEvent = s.stackEvent := rfl
@[simp] theorem State.setDT_input (s : State) (b : Byte) : (s.setDT b).input = s.input := rfl
@[simp] theorem State.setDT_supplied (s : State) (b : Byte) : (s.setDT b).supplied = s.supplied := rfl
@[simp] theorem State.setDT_freeTick (s : State) (b : Byte) : (s.setDT b).freeTick = s.freeTick := rfl
@[simp] theorem State.readV_setDT (s : State) (b : Byte) (q : Reg) : (s.setDT b).readV q = s.readV q := rfl
@[simp] theorem State.readMem_setDT (s : State) (b : Byte) (m : Nat) : (s.setDT b).readMem m = s.readMem m := rfl

/-! ### setST -/

@[simp] theorem State.setST_v (s : State) (b : Byte) : (s.setST b).v = s.v := rfl
@[simp] theorem State.setST_i (s : State) (b : Byte) : (s.setST b).i = s.i := rfl
@[simp] theorem State.setST_pc (s : State) (b : Byte) : (s.setST b).pc = s.pc := rfl
@[simp] theorem State.setST_sp (s : State) (b : Byte) : (s.setST b).sp = s.sp := rfl
@[simp] theorem State.setST_stack (s : State) (b : Byte) : (s.setST b).stack = s.stack := rfl
@[simp] theorem State.setST_dt (s : State) (b : Byte) : (s.setST b).dt = s.dt := rfl
@[simp] theorem State.setST_st (s : State) (b : Byte) : (s.setST b).st = b := rfl
@[simp] theorem State.setST_mem (s : State) (b : Byte) : (s.setST b).mem = s.mem := rfl
@[simp] theorem State.setST_fb (s : State) (b : Byte) : (s.setST b).fb = s.fb := rfl
@[simp] theorem State.setST_draw (s : State) (b : Byte) : (s.setST b).draw = s.draw := rfl
@[simp] theorem State.setST_waiting (s : State) (b : Byte) : (s.setST b).waiting = s.waiting := rfl
@[simp] theorem State.setST_waitReg (s : State) (b : Byte) : (s.setST b).waitReg = s.waitReg := rfl
@[simp] theorem State.setST_fault (s : State) (b : Byte) : (s.setST b).fault = s.fault := rfl
@[simp] theorem State.setST_stackEvent (s : State) (b : Byte) : (s.setST b).stackEvent = s.stackEvent := rfl
@[simp] theorem State.setST_input (s : State) (b : Byte) : (s.setST b).input = s.input := rfl
@[simp] theorem State.setST_supplied (s : State) (b : Byte) : (s.setST b).supplied = s.supplied := rfl
@[simp] theorem State.setST_freeTick (s : State) (b : Byte) : (s.setST b).freeTick = s.freeTick := rfl
@[simp] theorem State.readV_setST (s : State) (b : Byte) (q : Reg) : (s.setST b).readV q = s.readV q := rfl
@[simp] theorem State.readMem_setST (s : State) (b : Byte) (m : Nat) : (s.setST b).readMem m = s.readMem m := rfl

/-! ### armGate -/

@[simp] theorem State.armGate_v (s : State) (x : Reg) : (s.armGate x).v = s.v := rfl
@[simp] theorem State.armGate_i (s : State) (x : Reg) : (s.armGate x).i = s.i := rfl
@[simp] theorem State.armGate_pc (s : State) (x : Reg) : (s.armGate x).pc = s.pc := rfl
@[simp] theorem State.armGate_sp (s : State) (x : Reg) : (s.armGate x).sp = s.sp := rfl
@[simp] theorem State.armGate_stack (s : State) (x : Reg) : (s.armGate x).stack = s.stack := rfl
@[simp] theorem State.armGate_dt (s : State) (x : Reg) : (s.armGate x).dt = s.dt := rfl
@[simp] theorem State.armGate_st (s : State) (x : Reg) : (s.armGate x).st = s.st := rfl
@[simp] theorem State.armGate_mem (s : State) (x : Reg) : (s.armGate x).mem = s.mem := rfl
@[simp] theorem State.armGate_fb (s : State) (x : Reg) : (s.armGate x).fb = s.fb := rfl
@[simp] theorem State.armGate_draw (s : State) (x : Reg) : (s.armGate x).draw = s.draw := rfl
@[simp] theorem State.armGate_waiting (s : State) (x : Reg) : (s.armGate x).waiting = true := rfl
@[simp] theorem State.armGate_waitReg (s : State) (x : Reg) : (s.armGate x).waitReg = x := rfl
@[simp] theorem State.armGate_fault (s : State) (x : Reg) : (s.armGate x).fault = s.fault := rfl
@[simp] theorem State.armGate_stackEvent (s : State) (x : Reg) : (s.armGate x).stackEvent = s.stackEvent := rfl
@[simp] theorem State.armGate_input (s : State) (x : Reg) : (s.armGate x).input = s.input := rfl
@[simp] theorem State.armGate_supplied (s : State) (x : Reg) : (s.armGate x).supplied = s.supplied := rfl
@[simp] theorem State.armGate_freeTick (s : State) (x : Reg) : (s.armGate x).freeTick = s.freeTick := rfl
@[simp] theorem State.readV_armGate (s : State) (x : Reg) (q : Reg) : (s.armGate x).readV q = s.readV q := rfl
@[simp] theorem State.readMem_armGate (s : State) (x : Reg) (m : Nat) : (s.armGate x).readMem m = s.readMem m := rfl

/-! ### resolveGate -/

@[simp] theorem State.resolveGate_v (s : State) (b : Byte) : (s.resolveGate b).v = s.v.set s.waitReg b := rfl
@[simp] theorem State.resolveGate_i (s : State) (b : Byte) : (s.resolveGate b).i = s.i := rfl
@[simp] theorem State.resolveGate_pc (s : State) (b : Byte) : (s.resolveGate b).pc = s.pc := rfl
@[simp] theorem State.resolveGate_sp (s : State) (b : Byte) : (s.resolveGate b).sp = s.sp := rfl
@[simp] theorem State.resolveGate_stack (s : State) (b : Byte) : (s.resolveGate b).stack = s.stack := rfl
@[simp] theorem State.resolveGate_dt (s : State) (b : Byte) : (s.resolveGate b).dt = s.dt := rfl
@[simp] theorem State.resolveGate_st (s : State) (b : Byte) : (s.resolveGate b).st = s.st := rfl
@[simp] theorem State.resolveGate_mem (s : State) (b : Byte) : (s.resolveGate b).mem = s.mem := rfl
@[simp] theorem State.resolveGate_fb (s : State) (b : Byte) : (s.resolveGate b).fb = s.fb := rfl
@[simp] theorem State.resolveGate_draw (s : State) (b : Byte) : (s.resolveGate b).draw = s.draw := rfl
@[simp] theorem State.resolveGate_waiting (s : State) (b : Byte) : (s.resolveGate b).waiting = false := rfl
@[simp] theorem State.resolveGate_waitReg (s : State) (b : Byte) : (s.resolveGate b).waitReg = s.waitReg := rfl
@[simp] theorem State.resolveGate_fault (s : State) (b : Byte) : (s.resolveGate b).fault = s.fault := rfl
@[simp] theorem State.resolveGate_stackEvent (s : State) (b : Byte) : (s.resolveGate b).stackEvent = s.stackEvent := rfl
@[simp] theorem State.resolveGate_input (s : State) (b : Byte) : (s.resolveGate b).input = s.input := rfl
@[simp] theorem State.resolveGate_supplied (s : State) (b : Byte) : (s.resolveGate b).supplied = s.supplied := rfl
@[simp] theorem State.resolveGate_freeTick (s : State) (b : Byte) : (s.resolveGate b).freeTick = s.freeTick := rfl
@[simp] theorem State.readMem_resolveGate (s : State) (b : Byte) (m : Nat) : (s.resolveGate b).readMem m = s.readMem m := rfl

/-! ### raise -/

@[simp] theorem State.raise_v (s : State) (c : FaultCode) (w a : Word) : (s.raise c w a).v = s.v := rfl
@[simp] theorem State.raise_i (s : State) (c : FaultCode) (w a : Word) : (s.raise c w a).i = s.i := rfl
@[simp] theorem State.raise_pc (s : State) (c : FaultCode) (w a : Word) : (s.raise c w a).pc = s.pc := rfl
@[simp] theorem State.raise_sp (s : State) (c : FaultCode) (w a : Word) : (s.raise c w a).sp = s.sp := rfl
@[simp] theorem State.raise_stack (s : State) (c : FaultCode) (w a : Word) : (s.raise c w a).stack = s.stack := rfl
@[simp] theorem State.raise_dt (s : State) (c : FaultCode) (w a : Word) : (s.raise c w a).dt = s.dt := rfl
@[simp] theorem State.raise_st (s : State) (c : FaultCode) (w a : Word) : (s.raise c w a).st = s.st := rfl
@[simp] theorem State.raise_mem (s : State) (c : FaultCode) (w a : Word) : (s.raise c w a).mem = s.mem := rfl
@[simp] theorem State.raise_fb (s : State) (c : FaultCode) (w a : Word) : (s.raise c w a).fb = s.fb := rfl
@[simp] theorem State.raise_draw (s : State) (c : FaultCode) (w a : Word) : (s.raise c w a).draw = s.draw := rfl
@[simp] theorem State.raise_waiting (s : State) (c : FaultCode) (w a : Word) : (s.raise c w a).waiting = s.waiting := rfl
@[simp] theorem State.raise_waitReg (s : State) (c : FaultCode) (w a : Word) : (s.raise c w a).waitReg = s.waitReg := rfl
@[simp] theorem State.raise_fault (s : State) (c : FaultCode) (w a : Word) : (s.raise c w a).fault = ⟨c, s.pc, w, a⟩ := rfl
@[simp] theorem State.raise_stackEvent (s : State) (c : FaultCode) (w a : Word) : (s.raise c w a).stackEvent = s.stackEvent := rfl
@[simp] theorem State.raise_input (s : State) (c : FaultCode) (w a : Word) : (s.raise c w a).input = s.input := rfl
@[simp] theorem State.raise_supplied (s : State) (c : FaultCode) (w a : Word) : (s.raise c w a).supplied = s.supplied := rfl
@[simp] theorem State.raise_freeTick (s : State) (c : FaultCode) (w a : Word) : (s.raise c w a).freeTick = s.freeTick := rfl
@[simp] theorem State.readV_raise (s : State) (c : FaultCode) (w a : Word) (q : Reg) : (s.raise c w a).readV q = s.readV q := rfl
@[simp] theorem State.readMem_raise (s : State) (c : FaultCode) (w a : Word) (m : Nat) : (s.raise c w a).readMem m = s.readMem m := rfl

/-! ### present -/

@[simp] theorem State.present_v (s : State) (fb : Screen) : (s.present fb).v = s.v := rfl
@[simp] theorem State.present_i (s : State) (fb : Screen) : (s.present fb).i = s.i := rfl
@[simp] theorem State.present_pc (s : State) (fb : Screen) : (s.present fb).pc = s.pc := rfl
@[simp] theorem State.present_sp (s : State) (fb : Screen) : (s.present fb).sp = s.sp := rfl
@[simp] theorem State.present_stack (s : State) (fb : Screen) : (s.present fb).stack = s.stack := rfl
@[simp] theorem State.present_dt (s : State) (fb : Screen) : (s.present fb).dt = s.dt := rfl
@[simp] theorem State.present_st (s : State) (fb : Screen) : (s.present fb).st = s.st := rfl
@[simp] theorem State.present_mem (s : State) (fb : Screen) : (s.present fb).mem = s.mem := rfl
@[simp] theorem State.present_fb (s : State) (fb : Screen) : (s.present fb).fb = fb := rfl
@[simp] theorem State.present_draw (s : State) (fb : Screen) : (s.present fb).draw = true := rfl
@[simp] theorem State.present_waiting (s : State) (fb : Screen) : (s.present fb).waiting = s.waiting := rfl
@[simp] theorem State.present_waitReg (s : State) (fb : Screen) : (s.present fb).waitReg = s.waitReg := rfl
@[simp] theorem State.present_fault (s : State) (fb : Screen) : (s.present fb).fault = s.fault := rfl
@[simp] theorem State.present_stackEvent (s : State) (fb : Screen) : (s.present fb).stackEvent = s.stackEvent := rfl
@[simp] theorem State.present_input (s : State) (fb : Screen) : (s.present fb).input = s.input := rfl
@[simp] theorem State.present_supplied (s : State) (fb : Screen) : (s.present fb).supplied = s.supplied := rfl
@[simp] theorem State.present_freeTick (s : State) (fb : Screen) : (s.present fb).freeTick = s.freeTick := rfl
@[simp] theorem State.readV_present (s : State) (fb : Screen) (q : Reg) : (s.present fb).readV q = s.readV q := rfl
@[simp] theorem State.readMem_present (s : State) (fb : Screen) (m : Nat) : (s.present fb).readMem m = s.readMem m := rfl

/-! ### writeMem -/

@[simp] theorem State.writeMem_v (s : State) (a : Nat) (x : Byte) : (s.writeMem a x).v = s.v := rfl
@[simp] theorem State.writeMem_i (s : State) (a : Nat) (x : Byte) : (s.writeMem a x).i = s.i := rfl
@[simp] theorem State.writeMem_pc (s : State) (a : Nat) (x : Byte) : (s.writeMem a x).pc = s.pc := rfl
@[simp] theorem State.writeMem_sp (s : State) (a : Nat) (x : Byte) : (s.writeMem a x).sp = s.sp := rfl
@[simp] theorem State.writeMem_stack (s : State) (a : Nat) (x : Byte) : (s.writeMem a x).stack = s.stack := rfl
@[simp] theorem State.writeMem_dt (s : State) (a : Nat) (x : Byte) : (s.writeMem a x).dt = s.dt := rfl
@[simp] theorem State.writeMem_st (s : State) (a : Nat) (x : Byte) : (s.writeMem a x).st = s.st := rfl
@[simp] theorem State.writeMem_mem (s : State) (a : Nat) (x : Byte) : (s.writeMem a x).mem = s.mem.write a x := rfl
@[simp] theorem State.writeMem_fb (s : State) (a : Nat) (x : Byte) : (s.writeMem a x).fb = s.fb := rfl
@[simp] theorem State.writeMem_draw (s : State) (a : Nat) (x : Byte) : (s.writeMem a x).draw = s.draw := rfl
@[simp] theorem State.writeMem_waiting (s : State) (a : Nat) (x : Byte) : (s.writeMem a x).waiting = s.waiting := rfl
@[simp] theorem State.writeMem_waitReg (s : State) (a : Nat) (x : Byte) : (s.writeMem a x).waitReg = s.waitReg := rfl
@[simp] theorem State.writeMem_fault (s : State) (a : Nat) (x : Byte) : (s.writeMem a x).fault = s.fault := rfl
@[simp] theorem State.writeMem_stackEvent (s : State) (a : Nat) (x : Byte) : (s.writeMem a x).stackEvent = s.stackEvent := rfl
@[simp] theorem State.writeMem_input (s : State) (a : Nat) (x : Byte) : (s.writeMem a x).input = s.input := rfl
@[simp] theorem State.writeMem_supplied (s : State) (a : Nat) (x : Byte) : (s.writeMem a x).supplied = s.supplied := rfl
@[simp] theorem State.writeMem_freeTick (s : State) (a : Nat) (x : Byte) : (s.writeMem a x).freeTick = s.freeTick := rfl
@[simp] theorem State.readV_writeMem (s : State) (a : Nat) (x : Byte) (q : Reg) : (s.writeMem a x).readV q = s.readV q := rfl

/-! ### writeBytes -/

@[simp] theorem State.writeBytes_v (s : State) (a : Nat) (xs : List Byte) : (s.writeBytes a xs).v = s.v := rfl
@[simp] theorem State.writeBytes_i (s : State) (a : Nat) (xs : List Byte) : (s.writeBytes a xs).i = s.i := rfl
@[simp] theorem State.writeBytes_pc (s : State) (a : Nat) (xs : List Byte) : (s.writeBytes a xs).pc = s.pc := rfl
@[simp] theorem State.writeBytes_sp (s : State) (a : Nat) (xs : List Byte) : (s.writeBytes a xs).sp = s.sp := rfl
@[simp] theorem State.writeBytes_stack (s : State) (a : Nat) (xs : List Byte) : (s.writeBytes a xs).stack = s.stack := rfl
@[simp] theorem State.writeBytes_dt (s : State) (a : Nat) (xs : List Byte) : (s.writeBytes a xs).dt = s.dt := rfl
@[simp] theorem State.writeBytes_st (s : State) (a : Nat) (xs : List Byte) : (s.writeBytes a xs).st = s.st := rfl
@[simp] theorem State.writeBytes_mem (s : State) (a : Nat) (xs : List Byte) : (s.writeBytes a xs).mem = s.mem.writeBytes a xs := rfl
@[simp] theorem State.writeBytes_fb (s : State) (a : Nat) (xs : List Byte) : (s.writeBytes a xs).fb = s.fb := rfl
@[simp] theorem State.writeBytes_draw (s : State) (a : Nat) (xs : List Byte) : (s.writeBytes a xs).draw = s.draw := rfl
@[simp] theorem State.writeBytes_waiting (s : State) (a : Nat) (xs : List Byte) : (s.writeBytes a xs).waiting = s.waiting := rfl
@[simp] theorem State.writeBytes_waitReg (s : State) (a : Nat) (xs : List Byte) : (s.writeBytes a xs).waitReg = s.waitReg := rfl
@[simp] theorem State.writeBytes_fault (s : State) (a : Nat) (xs : List Byte) : (s.writeBytes a xs).fault = s.fault := rfl
@[simp] theorem State.writeBytes_stackEvent (s : State) (a : Nat) (xs : List Byte) : (s.writeBytes a xs).stackEvent = s.stackEvent := rfl
@[simp] theorem State.writeBytes_input (s : State) (a : Nat) (xs : List Byte) : (s.writeBytes a xs).input = s.input := rfl
@[simp] theorem State.writeBytes_supplied (s : State) (a : Nat) (xs : List Byte) : (s.writeBytes a xs).supplied = s.supplied := rfl
@[simp] theorem State.writeBytes_freeTick (s : State) (a : Nat) (xs : List Byte) : (s.writeBytes a xs).freeTick = s.freeTick := rfl
@[simp] theorem State.readV_writeBytes (s : State) (a : Nat) (xs : List Byte) (q : Reg) : (s.writeBytes a xs).readV q = s.readV q := rfl

/-! ### clearDraw -/

@[simp] theorem State.clearDraw_v (s : State) : s.clearDraw.v = s.v := rfl
@[simp] theorem State.clearDraw_i (s : State) : s.clearDraw.i = s.i := rfl
@[simp] theorem State.clearDraw_pc (s : State) : s.clearDraw.pc = s.pc := rfl
@[simp] theorem State.clearDraw_sp (s : State) : s.clearDraw.sp = s.sp := rfl
@[simp] theorem State.clearDraw_stack (s : State) : s.clearDraw.stack = s.stack := rfl
@[simp] theorem State.clearDraw_dt (s : State) : s.clearDraw.dt = s.dt := rfl
@[simp] theorem State.clearDraw_st (s : State) : s.clearDraw.st = s.st := rfl
@[simp] theorem State.clearDraw_mem (s : State) : s.clearDraw.mem = s.mem := rfl
@[simp] theorem State.clearDraw_fb (s : State) : s.clearDraw.fb = s.fb := rfl
@[simp] theorem State.clearDraw_draw (s : State) : s.clearDraw.draw = false := rfl
@[simp] theorem State.clearDraw_waiting (s : State) : s.clearDraw.waiting = s.waiting := rfl
@[simp] theorem State.clearDraw_waitReg (s : State) : s.clearDraw.waitReg = s.waitReg := rfl
@[simp] theorem State.clearDraw_fault (s : State) : s.clearDraw.fault = s.fault := rfl
@[simp] theorem State.clearDraw_stackEvent (s : State) : s.clearDraw.stackEvent = s.stackEvent := rfl
@[simp] theorem State.clearDraw_input (s : State) : s.clearDraw.input = s.input := rfl
@[simp] theorem State.clearDraw_supplied (s : State) : s.clearDraw.supplied = s.supplied := rfl
@[simp] theorem State.clearDraw_freeTick (s : State) : s.clearDraw.freeTick = s.freeTick := rfl
@[simp] theorem State.readV_clearDraw (s : State) (q : Reg) : s.clearDraw.readV q = s.readV q := rfl
@[simp] theorem State.readMem_clearDraw (s : State) (m : Nat) : s.clearDraw.readMem m = s.readMem m := rfl

/-! ### tickTimers -/

@[simp] theorem State.tickTimers_v (s : State) : s.tickTimers.v = s.v := rfl
@[simp] theorem State.tickTimers_i (s : State) : s.tickTimers.i = s.i := rfl
@[simp] theorem State.tickTimers_pc (s : State) : s.tickTimers.pc = s.pc := rfl
@[simp] theorem State.tickTimers_sp (s : State) : s.tickTimers.sp = s.sp := rfl
@[simp] theorem State.tickTimers_stack (s : State) : s.tickTimers.stack = s.stack := rfl
@[simp] theorem State.tickTimers_dt (s : State) : s.tickTimers.dt = countdown s.dt := rfl
@[simp] theorem State.tickTimers_st (s : State) : s.tickTimers.st = countdown s.st := rfl
@[simp] theorem State.tickTimers_mem (s : State) : s.tickTimers.mem = s.mem := rfl
@[simp] theorem State.tickTimers_fb (s : State) : s.tickTimers.fb = s.fb := rfl
@[simp] theorem State.tickTimers_draw (s : State) : s.tickTimers.draw = s.draw := rfl
@[simp] theorem State.tickTimers_waiting (s : State) : s.tickTimers.waiting = s.waiting := rfl
@[simp] theorem State.tickTimers_waitReg (s : State) : s.tickTimers.waitReg = s.waitReg := rfl
@[simp] theorem State.tickTimers_fault (s : State) : s.tickTimers.fault = s.fault := rfl
@[simp] theorem State.tickTimers_stackEvent (s : State) : s.tickTimers.stackEvent = s.stackEvent := rfl
@[simp] theorem State.tickTimers_input (s : State) : s.tickTimers.input = s.input := rfl
@[simp] theorem State.tickTimers_supplied (s : State) : s.tickTimers.supplied = s.supplied := rfl
@[simp] theorem State.tickTimers_freeTick (s : State) : s.tickTimers.freeTick = s.freeTick := rfl
@[simp] theorem State.readV_tickTimers (s : State) (q : Reg) : s.tickTimers.readV q = s.readV q := rfl
@[simp] theorem State.readMem_tickTimers (s : State) (m : Nat) : s.tickTimers.readMem m = s.readMem m := rfl

end Sys2Proof.Machine
end

