-- ==== Sys2Proof/Laws/Flow.lean ====
section
/-! SUPPORT. The laws of the shared operations on PC, the stack and the fault state, and of the step: each says once
everything the operation can do. -/

namespace Sys2Proof.Machine

/-- A skip moves PC by 4 or by 2 and touches nothing else. -/
theorem State.skipIf_eq (s : State) (c : Bool) : s.skipIf c = s.jumpTo (if c then s.pc + 4 else s.pc + 2) := by
  cases c <;> rfl

/-- A push where an entry is free. -/
theorem State.push_of_lt {s : State} (ret : Word) (h : s.sp.val < 16) :
    s.push ret = { s with stack := s.stack.set s.sp.val ret, sp := ⟨s.sp.val + 1, by omega⟩ } := by
  simp [State.push, h]

/-- A push on a full stack. -/
theorem State.push_full {s : State} (ret : Word) (h : s.sp.val = 16) :
    s.push ret = { s with stackEvent := true } := by
  simp [State.push, h]

/-- What a return pops from a stack that is not empty. -/
theorem State.top_of_pos {s : State} (h : 0 < s.sp.val) :
    s.top = some (s.stack[s.sp.val - 1]'(by omega)) := by
  simp [State.top, h]

/-- An empty stack has nothing to pop. -/
theorem State.top_empty {s : State} (h : s.sp.val = 0) : s.top = none := by
  simp [State.top, h]

/-- A pop from a stack that is not empty. -/
theorem State.pop_of_pos {s : State} (h : 0 < s.sp.val) :
    s.pop = { s with sp := ⟨s.sp.val - 1, by omega⟩ } := by
  simp [State.pop, h]

/-- A pop from an empty stack. -/
theorem State.pop_empty {s : State} (h : s.sp.val = 0) : s.pop = { s with stackEvent := true } := by
  simp [State.pop, h]

/-- A data instruction whose range lies in memory runs its body. -/
theorem State.withDataRange_inside {s : State} {i : Instr} {n : Nat} {body : State → State}
    (h : beyondMemory s.dataAddr n = false) : s.withDataRange i n body = body s := by
  simp [State.withDataRange, h]

/-- A data instruction whose range leaves memory raises DATA_OOB and does nothing else. -/
theorem State.withDataRange_beyond {s : State} {i : Instr} {n : Nat} {body : State → State}
    (h : beyondMemory s.dataAddr n = true) :
    s.withDataRange i n body = s.raise .dataOob (encode i) (dataFaultInfo s.i) := by
  simp [State.withDataRange, h]

/-- The range check in numbers (R49, R152). -/
theorem beyondMemory_eq_false (a n : Nat) : beyondMemory a n = false ↔ n = 0 ∨ a + n ≤ Config.memSize := by
  simp only [beyondMemory, Config.memSize, Bool.and_eq_false_iff, decide_eq_false_iff_not]
  omega

/-- The range check in numbers (R49, R152). -/
theorem beyondMemory_eq_true (a n : Nat) : beyondMemory a n = true ↔ 0 < n ∧ Config.memSize < a + n := by
  simp only [beyondMemory, Config.memSize, Bool.and_eq_true, decide_eq_true_eq]
  omega

/-- The fault_info of a data access as a number: max(I, 0x1000) (R171). -/
theorem dataFaultInfo_toNat (a : Word) : (dataFaultInfo a).toNat = max a.toNat 0x1000 := by
  unfold dataFaultInfo
  split
  · next h =>
    rw [BitVec.lt_def] at h
    have e : (0x1000 : Word).toNat = 0x1000 := rfl
    rw [e] at h ⊢
    omega
  · next h =>
    rw [BitVec.lt_def] at h
    have e : (0x1000 : Word).toNat = 0x1000 := rfl
    rw [e] at h
    omega

/-- A key instruction on a number that names a key is a skip. -/
theorem State.withKey_key {s : State} {i : Instr} {x : Reg} {c : Bool → Bool} (h : (s.readV x).toNat ≤ 15) :
    s.withKey i x c = s.skipIf (c (s.input.keys.getLsbD (s.readV x).toNat)) := by
  simp [State.withKey, isKey, h]

/-- A key instruction on a number above 15 raises KEY_INDEX and does nothing else. -/
theorem State.withKey_none {s : State} {i : Instr} {x : Reg} {c : Bool → Bool} (h : 15 < (s.readV x).toNat) :
    s.withKey i x c = s.raise .keyIndex (encode i) (zextByte (s.readV x)) := by
  simp [State.withKey, isKey, Nat.not_le.mpr h]

/-! ### Sampling touches the inputs alone -/

/-- Sampling an input changes the three input fields and nothing else. -/
theorem State.sample_eq (s : State) :
    ∃ inp rest tick, s.sample = { s with input := inp, supplied := rest, freeTick := tick } := by
  unfold State.sample
  split
  · exact ⟨_, _, _, rfl⟩
  · exact ⟨_, s.supplied, _, rfl⟩

/-- What an instruction finds when it starts: the state of the step, draw 0, the timers counted down, an input. -/
theorem State.beginInstr_eq (s : State) :
    ∃ inp rest tick, s.beginInstr =
      { s with draw := false, dt := countdown s.dt, st := countdown s.st, input := inp, supplied := rest,
               freeTick := tick } := by
  obtain ⟨inp, rest, tick, h⟩ := s.sample_eq
  exact ⟨inp, rest, tick, by simp [State.beginInstr, State.beginStep, h, State.clearDraw, State.tickTimers]⟩

/-- What a gate poll or a faulted step starts from. -/
theorem State.beginStep_eq (s : State) :
    ∃ inp rest tick, s.beginStep =
      { s with draw := false, input := inp, supplied := rest, freeTick := tick } := by
  obtain ⟨inp, rest, tick, h⟩ := s.sample_eq
  exact ⟨inp, rest, tick, by simp [State.beginStep, h, State.clearDraw]⟩

/-! ### The step, by the three kinds of state (R80) -/

/-- A faulted core. -/
theorem step_faulted {s : State} (h : s.fault.code ≠ .none) : step s = .next s.beginStep := by
  simp [step, State.faulted, h]

/-- A waiting core. -/
theorem step_waiting {s : State} (h : s.fault.code = .none) (hw : s.waiting = true) :
    step s = .next s.beginStep.pollGate := by
  simp [step, State.faulted, h, hw]

/-- A running core. -/
theorem step_running {s : State} (h : s.fault.code = .none) (hw : s.waiting = false) :
    step s = runInstr s.beginInstr := by
  simp [step, State.faulted, h, hw]

/-- The instruction path where the fetch leaves memory. -/
theorem runInstr_beyond {s : State} (h : s.fetchBeyond = true) : runInstr s = .next (s.raise .fetchOob 0 s.pc) := by
  simp [runInstr, h]

/-- The instruction path on an instruction's word. -/
theorem runInstr_instr {s : State} {i : Instr} (h : s.fetchBeyond = false) (hd : decode s.fetchWord = .instr i) :
    runInstr s = exec i s := by
  simp [runInstr, h, hd]

/-- The instruction path on an UNKNOWN word. -/
theorem runInstr_unknown {s : State} {w : Word} (h : s.fetchBeyond = false) (hd : decode s.fetchWord = .unknown w) :
    runInstr s = .next s.noop := by
  simp [runInstr, h, hd]

end Sys2Proof.Machine
end

