-- ==== Sys2Proof/Laws/Memory.lean ====
section
/-! SUPPORT. The laws of memory: read after write, and that every memory operation keeps the canonical form. -/

namespace Sys2Proof.Machine

/-! ### The canonical form -/

/-- A canonical form from a higher address on is one from a lower address on. -/
theorem Memory.wfFrom_mono {lo lo' : Nat} {m : Memory} (h : Memory.wfFrom lo m = true) (hlo : lo' ≤ lo) :
    Memory.wfFrom lo' m = true := by
  cases m with
  | nil => rfl
  | cons c rest =>
    obtain ⟨a, x⟩ := c
    simp only [Memory.wfFrom, Bool.and_eq_true, decide_eq_true_eq] at h ⊢
    exact ⟨⟨⟨by omega, h.1.1.2⟩, h.1.2⟩, h.2⟩

/-- An address below the canonical form's first reads as reset left it. -/
theorem Memory.read_below {lo a : Nat} {m : Memory} (h : Memory.wfFrom lo m = true) (ha : a < lo) :
    Memory.read m a = initialByte a := by
  induction m generalizing lo with
  | nil => rfl
  | cons c rest ih =>
    obtain ⟨b, x⟩ := c
    simp only [Memory.wfFrom, Bool.and_eq_true, decide_eq_true_eq] at h
    have hne : a ≠ b := by omega
    simp only [Memory.read, if_neg hne]
    exact ih h.2 (by omega)

/-- A write at or above the form's first address, inside memory, keeps the canonical form. -/
theorem Memory.write_wfFrom {lo a : Nat} {m : Memory} {x : Byte} (h : Memory.wfFrom lo m = true) (hlo : lo ≤ a)
    (ha : a < Config.memSize) : Memory.wfFrom lo (m.write a x) = true := by
  induction m generalizing lo with
  | nil =>
    unfold Memory.write
    split
    · rfl
    · simp_all [Memory.wfFrom]
  | cons c rest ih =>
    obtain ⟨b, y⟩ := c
    have h' := h
    simp only [Memory.wfFrom, Bool.and_eq_true, decide_eq_true_eq] at h'
    unfold Memory.write
    split_ifs with h1 h2 h3 h4
    · exact h
    · simp only [Memory.wfFrom, Bool.and_eq_true, decide_eq_true_eq, bne_iff_ne, ne_eq]
      exact ⟨⟨⟨hlo, ha⟩, h2⟩, ⟨⟨⟨by omega, h'.1.1.2⟩, by simpa using h'.1.2⟩, h'.2⟩⟩
    · exact Memory.wfFrom_mono h'.2 (by omega)
    · simp only [Memory.wfFrom, Bool.and_eq_true, decide_eq_true_eq, bne_iff_ne, ne_eq]
      subst h3
      exact ⟨⟨⟨hlo, ha⟩, h4⟩, h'.2⟩
    · simp only [Memory.wfFrom, Bool.and_eq_true, decide_eq_true_eq]
      exact ⟨h'.1, ih h'.2 (by omega)⟩

/-- A write inside memory keeps the canonical form. -/
theorem Memory.write_wf {m : Memory} {a : Nat} {x : Byte} (h : m.wf = true) (ha : a < Config.memSize) :
    (m.write a x).wf = true :=
  Memory.write_wfFrom h (Nat.zero_le a) ha

/-- Writing bytes that all lie inside memory keeps the canonical form. -/
theorem Memory.writeBytes_wf {m : Memory} {a : Nat} {xs : List Byte} (h : m.wf = true)
    (ha : a + xs.length ≤ Config.memSize) : (m.writeBytes a xs).wf = true := by
  induction xs generalizing m a with
  | nil => exact h
  | cons x xs ih =>
    simp only [List.length_cons] at ha
    exact ih (Memory.write_wf h (by omega)) (by omega)

/-- Loading an image keeps the canonical form. -/
theorem Memory.loadImage_wf {m : Memory} (image : List Byte) (h : m.wf = true) : (m.loadImage image).wf = true := by
  refine Memory.writeBytes_wf h ?_
  have hl : (image.take (Config.memSize - Config.entry.toNat)).length ≤ Config.memSize - Config.entry.toNat :=
    List.length_take_le _ _
  have he : Config.entry.toNat ≤ Config.memSize := by decide
  omega

/-! ### Read after write -/

/-- A write leaves every other address as it was. -/
theorem Memory.read_write_ne (m : Memory) {a a' : Nat} (x : Byte) (h : a' ≠ a) :
    (m.write a x).read a' = m.read a' := by
  induction m with
  | nil =>
    unfold Memory.write
    split <;> simp [Memory.read, h]
  | cons c rest ih =>
    obtain ⟨b, y⟩ := c
    unfold Memory.write
    split_ifs with h1 h2 h3 h4
    · rfl
    · simp [Memory.read, h]
    · subst h3; simp [Memory.read, h]
    · subst h3; simp [Memory.read, h]
    · simp only [Memory.read, ih]

/-- A write is read back, from a canonical memory. -/
theorem Memory.read_write_self_from {lo : Nat} {m : Memory} (a : Nat) (x : Byte) (h : Memory.wfFrom lo m = true) :
    (m.write a x).read a = x := by
  induction m generalizing lo with
  | nil =>
    unfold Memory.write
    split <;> simp_all [Memory.read]
  | cons c rest ih =>
    obtain ⟨b, y⟩ := c
    simp only [Memory.wfFrom, Bool.and_eq_true, decide_eq_true_eq] at h
    unfold Memory.write
    split_ifs with h1 h2 h3 h4
    · have hne : a ≠ b := by omega
      simp only [Memory.read, if_neg hne]
      rw [h2]
      exact Memory.read_below h.2 (by omega)
    · simp [Memory.read]
    · subst h3
      rw [h4]
      exact Memory.read_below h.2 (by omega)
    · simp [Memory.read]
    · simp only [Memory.read, if_neg h3]
      exact ih h.2

/-- A write is read back, from a canonical memory. -/
theorem Memory.read_write_self {m : Memory} (a : Nat) (x : Byte) (h : m.wf = true) : (m.write a x).read a = x :=
  Memory.read_write_self_from a x h

/-- Bytes written below an address leave it as it was; so do bytes written above it. -/
theorem Memory.read_writeBytes_outside (m : Memory) (a : Nat) (xs : List Byte) {a' : Nat}
    (h : a' < a ∨ a + xs.length ≤ a') : (m.writeBytes a xs).read a' = m.read a' := by
  induction xs generalizing m a with
  | nil => rfl
  | cons x xs ih =>
    simp only [List.length_cons] at h
    rw [Memory.writeBytes, ih (m.write a x) (a + 1) (by omega), Memory.read_write_ne m x (by omega)]

/-- Bytes written inside memory are read back, each at its own address. -/
theorem Memory.read_writeBytes_inside {m : Memory} {a : Nat} {xs : List Byte} (hm : m.wf = true)
    (ha : a + xs.length ≤ Config.memSize) (k : Nat) (hk : k < xs.length) :
    (m.writeBytes a xs).read (a + k) = xs[k] := by
  induction xs generalizing m a k with
  | nil => simp at hk
  | cons x xs ih =>
    simp only [List.length_cons] at ha hk
    rw [Memory.writeBytes]
    cases k with
    | zero =>
      rw [Memory.read_writeBytes_outside _ _ _ (by omega)]
      simpa using Memory.read_write_self a x hm
    | succ j =>
      have e : a + (j + 1) = a + 1 + j := by omega
      rw [e, ih (Memory.write_wf hm (by omega)) (by omega) j (by omega)]
      simp

/-! ### The same laws for the state's own accesses -/

theorem State.readMem_writeMem_ne (s : State) {a a' : Nat} (x : Byte) (h : a' ≠ a) :
    (s.writeMem a x).readMem a' = s.readMem a' := Memory.read_write_ne s.mem x h

theorem State.readMem_writeMem_self {s : State} (a : Nat) (x : Byte) (h : s.mem.wf = true) :
    (s.writeMem a x).readMem a = x := Memory.read_write_self a x h

theorem State.readMem_writeBytes_outside (s : State) (a : Nat) (xs : List Byte) {a' : Nat}
    (h : a' < a ∨ a + xs.length ≤ a') : (s.writeBytes a xs).readMem a' = s.readMem a' :=
  Memory.read_writeBytes_outside s.mem a xs h

theorem State.readMem_writeBytes_inside {s : State} {a : Nat} {xs : List Byte} (hm : s.mem.wf = true)
    (ha : a + xs.length ≤ Config.memSize) (k : Nat) (hk : k < xs.length) :
    (s.writeBytes a xs).readMem (a + k) = xs[k] :=
  Memory.read_writeBytes_inside hm ha k hk

end Sys2Proof.Machine
end

