-- ==== Sys2Proof/Laws/Registers.lean ====
section
/-! SUPPORT. The laws of the registers: read after write, the two-write operations of 8xy4-8xyE, the register ranges
of Fx55 and Fx65, and the gate poll. -/

namespace Sys2Proof.Machine

/-- A written register holds what was written. -/
@[simp] theorem State.readV_writeV_self (s : State) (r : Reg) (b : Byte) : (s.writeV r b).readV r = b := by
  simp [State.readV, State.writeV]

/-- A write to one register leaves every other. -/
theorem State.readV_writeV_ne (s : State) {r q : Reg} (b : Byte) (h : q ≠ r) :
    (s.writeV r b).readV q = s.readV q := by
  have hv : r.val ≠ q.val := fun e => h (Fin.ext e.symm)
  simp [State.readV, State.writeV, hv]

/-- Reading after a write, in one equation. -/
theorem State.readV_writeV (s : State) (r q : Reg) (b : Byte) :
    (s.writeV r b).readV q = if q = r then b else s.readV q := by
  split
  · next h => subst h; simp
  · next h => exact State.readV_writeV_ne s b h

/-- The gate poll's write (R83). -/
@[simp] theorem State.readV_resolveGate (s : State) (b : Byte) (q : Reg) :
    (s.resolveGate b).readV q = (s.writeV s.waitReg b).readV q := rfl

/-- Two states with equal registers, seen through readV. -/
theorem State.v_ext {s t : State} (h : ∀ r, t.readV r = s.readV r) : t.v = s.v := by
  apply Vector.ext
  intro k hk
  exact h ⟨k, hk⟩

/-! ### 8xy4 to 8xyE: what the two writes leave -/

/-- 8xy4's order: VF holds the flag, whatever x is. -/
theorem State.readV_resultThenFlag (s : State) (x q : Reg) (a f : Byte) :
    (s.resultThenFlag x a f).readV q = if q = Reg.vf then f else if q = x then a else s.readV q := by
  simp only [State.resultThenFlag, State.readV_writeV]

/-- The source's order: V[x] holds the result computed after the flag was written; VF holds the flag unless x is VF. -/
theorem State.readV_flagThenResult (s : State) (x q : Reg) (f : Byte) (g : State → Byte) :
    (s.flagThenResult Config.vfOrder x f g).readV q =
      if q = x then g (s.writeV Reg.vf f) else if q = Reg.vf then f else s.readV q := by
  simp only [State.flagThenResult, Config.vfOrder, State.readV_writeV]

/-- The two writes touch nothing but the registers. -/
theorem State.flagThenResult_eq (s : State) (o : Config.VfOrder) (x : Reg) (f : Byte) (g : State → Byte) :
    ∃ vs, s.flagThenResult o x f g = { s with v := vs } := by
  cases o
  · exact ⟨_, rfl⟩
  · exact ⟨_, rfl⟩

/-- The two writes touch nothing but the registers. -/
theorem State.resultThenFlag_eq (s : State) (x : Reg) (a f : Byte) :
    ∃ vs, s.resultThenFlag x a f = { s with v := vs } := ⟨_, rfl⟩

/-! ### Register ranges -/

/-- The registers named by a range are those up to x. -/
theorem mem_regsUpTo (x r : Reg) : r ∈ regsUpTo x ↔ r ≤ x := by
  simp only [regsUpTo, List.mem_map, List.mem_range]
  constructor
  · rintro ⟨k, hk, rfl⟩
    have hx := x.isLt
    rw [Fin.le_def]
    simp only [Fin.val_ofNat]
    rw [Nat.mod_eq_of_lt (by omega)]
    omega
  · intro h
    refine ⟨r.val, by rw [Fin.le_def] at h; omega, ?_⟩
    exact Fin.ext (by simp)

/-- Loading registers changes nothing but registers. -/
theorem State.loadRegs_eq (s : State) (rs : List Reg) : ∃ vs, s.loadRegs rs = { s with v := vs } := by
  induction rs generalizing s with
  | nil => exact ⟨s.v, rfl⟩
  | cons r rs ih =>
    obtain ⟨vs, h⟩ := ih (s.writeV r (s.readMem (s.dataAddr + r.val)))
    exact ⟨vs, h⟩

/-- Loading registers: each one named holds its byte of memory, the others are as before. -/
theorem State.readV_loadRegs (s : State) (rs : List Reg) (q : Reg) :
    (s.loadRegs rs).readV q = if q ∈ rs then s.readMem (s.dataAddr + q.val) else s.readV q := by
  induction rs generalizing s with
  | nil => simp [State.loadRegs]
  | cons r rs ih =>
    have h := ih (s.writeV r (s.readMem (s.dataAddr + r.val)))
    have e : (s.loadRegs (r :: rs)) = (s.writeV r (s.readMem (s.dataAddr + r.val))).loadRegs rs := rfl
    rw [e, h]
    simp only [State.readV_writeV, List.mem_cons]
    have hd : (s.writeV r (s.readMem (s.dataAddr + r.val))).dataAddr = s.dataAddr := rfl
    rw [hd, State.readMem_writeV]
    by_cases h1 : q ∈ rs
    · simp [h1]
    · by_cases h2 : q = r
      · subst h2; simp [h1]
      · simp [h1, h2]

/-- Storing registers changes nothing but memory. -/
theorem State.storeRegs_eq (s : State) (rs : List Reg) : ∃ m, s.storeRegs rs = { s with mem := m } := by
  induction rs generalizing s with
  | nil => exact ⟨s.mem, rfl⟩
  | cons r rs ih =>
    obtain ⟨m, h⟩ := ih (s.writeMem (s.dataAddr + r.val) (s.readV r))
    exact ⟨m, h⟩

/-- Storing registers leaves every byte that none of them is stored to. -/
theorem State.readMem_storeRegs_outside (s : State) (rs : List Reg) {a : Nat}
    (h : ∀ r ∈ rs, a ≠ s.dataAddr + r.val) : (s.storeRegs rs).readMem a = s.readMem a := by
  induction rs generalizing s with
  | nil => rfl
  | cons r rs ih =>
    have e : (s.storeRegs (r :: rs)) = (s.writeMem (s.dataAddr + r.val) (s.readV r)).storeRegs rs := rfl
    rw [e, ih (s.writeMem (s.dataAddr + r.val) (s.readV r)) (fun q hq => h q (List.mem_cons_of_mem _ hq)),
      State.readMem_writeMem_ne s _ (h r (List.mem_cons_self))]

/-- Storing registers inside memory keeps the canonical form. -/
theorem State.storeRegs_wf {s : State} {rs : List Reg} (hm : s.mem.wf = true)
    (h : ∀ r ∈ rs, s.dataAddr + r.val < Config.memSize) : (s.storeRegs rs).mem.wf = true := by
  induction rs generalizing s with
  | nil => exact hm
  | cons r rs ih =>
    have e : (s.storeRegs (r :: rs)) = (s.writeMem (s.dataAddr + r.val) (s.readV r)).storeRegs rs := rfl
    rw [e]
    refine ih ?_ (fun q hq => h q (List.mem_cons_of_mem _ hq))
    exact Memory.write_wf hm (h r (List.mem_cons_self))

/-- Each register stored inside memory is found at its own address. -/
theorem State.readMem_storeRegs_inside {s : State} {rs : List Reg} (hm : s.mem.wf = true)
    (h : ∀ r ∈ rs, s.dataAddr + r.val < Config.memSize) (q : Reg) (hq : q ∈ rs) :
    (s.storeRegs rs).readMem (s.dataAddr + q.val) = s.readV q := by
  induction rs generalizing s with
  | nil => cases hq
  | cons r rs ih =>
    have e : (s.storeRegs (r :: rs)) = (s.writeMem (s.dataAddr + r.val) (s.readV r)).storeRegs rs := rfl
    have hm' : (s.writeMem (s.dataAddr + r.val) (s.readV r)).mem.wf = true :=
      Memory.write_wf hm (h r (List.mem_cons_self))
    rw [e]
    by_cases h1 : q ∈ rs
    · exact ih hm' (fun p hp => h p (List.mem_cons_of_mem _ hp)) h1
    · have h2 : q = r := by
        rcases List.mem_cons.mp hq with h3 | h3
        · exact h3
        · exact absurd h3 h1
      subst h2
      rw [State.readMem_storeRegs_outside]
      · exact State.readMem_writeMem_self _ _ hm
      · intro p hp e2
        have e3 : s.dataAddr + q.val = s.dataAddr + p.val := e2
        have : q = p := Fin.ext (by omega)
        exact h1 (this ▸ hp)

/-- At the default of I_INCREMENT, I is left alone. -/
@[simp] theorem State.indexAfter_default (s : State) (x : Reg) : s.indexAfter Config.indexIncrement x = s := rfl

/-! ### The key scan (R83) -/

/-- The key found is down, and no lower one is. -/
theorem lowestKey_some {keys : BitVec 16} {k : Nat} (h : lowestKey keys = some k) :
    k < 16 ∧ keys.getLsbD k = true ∧ ∀ j, j < k → keys.getLsbD j = false := by
  unfold lowestKey at h
  rw [List.find?_range_eq_some] at h
  obtain ⟨h1, h2, h3⟩ := h
  exact ⟨List.mem_range.mp h2, h1, fun j hj => by simpa using h3 j hj⟩

/-- No key is found where none is down. -/
theorem lowestKey_none {keys : BitVec 16} : lowestKey keys = none ↔ keys = 0 := by
  unfold lowestKey
  rw [List.find?_range_eq_none]
  constructor
  · intro h
    apply BitVec.eq_of_getLsbD_eq
    intro i hi
    simpa using h i hi
  · intro h
    subst h
    simp

end Sys2Proof.Machine
end

