-- ==== Sys2Proof/Laws/Frames.lean ====
section
/-! SUPPORT. The frame of the operations that are built from several updates: each field of State that the operation
leaves alone. -/

namespace Sys2Proof.Machine

/-! ### skipIf: what it leaves alone -/

@[simp] theorem State.skipIf_v (s : State) (c : Bool) : (s.skipIf c).v = s.v := by cases c <;> rfl
@[simp] theorem State.skipIf_i (s : State) (c : Bool) : (s.skipIf c).i = s.i := by cases c <;> rfl
@[simp] theorem State.skipIf_sp (s : State) (c : Bool) : (s.skipIf c).sp = s.sp := by cases c <;> rfl
@[simp] theorem State.skipIf_stack (s : State) (c : Bool) : (s.skipIf c).stack = s.stack := by cases c <;> rfl
@[simp] theorem State.skipIf_dt (s : State) (c : Bool) : (s.skipIf c).dt = s.dt := by cases c <;> rfl
@[simp] theorem State.skipIf_st (s : State) (c : Bool) : (s.skipIf c).st = s.st := by cases c <;> rfl
@[simp] theorem State.skipIf_mem (s : State) (c : Bool) : (s.skipIf c).mem = s.mem := by cases c <;> rfl
@[simp] theorem State.skipIf_fb (s : State) (c : Bool) : (s.skipIf c).fb = s.fb := by cases c <;> rfl
@[simp] theorem State.skipIf_draw (s : State) (c : Bool) : (s.skipIf c).draw = s.draw := by cases c <;> rfl
@[simp] theorem State.skipIf_waiting (s : State) (c : Bool) : (s.skipIf c).waiting = s.waiting := by cases c <;> rfl
@[simp] theorem State.skipIf_waitReg (s : State) (c : Bool) : (s.skipIf c).waitReg = s.waitReg := by cases c <;> rfl
@[simp] theorem State.skipIf_fault (s : State) (c : Bool) : (s.skipIf c).fault = s.fault := by cases c <;> rfl
@[simp] theorem State.skipIf_stackEvent (s : State) (c : Bool) : (s.skipIf c).stackEvent = s.stackEvent := by cases c <;> rfl
@[simp] theorem State.skipIf_input (s : State) (c : Bool) : (s.skipIf c).input = s.input := by cases c <;> rfl
@[simp] theorem State.skipIf_supplied (s : State) (c : Bool) : (s.skipIf c).supplied = s.supplied := by cases c <;> rfl
@[simp] theorem State.skipIf_freeTick (s : State) (c : Bool) : (s.skipIf c).freeTick = s.freeTick := by cases c <;> rfl

@[simp] theorem State.skipIf_pc (s : State) (c : Bool) : (s.skipIf c).pc = if c then s.pc + 4 else s.pc + 2 := by
  cases c <;> rfl

@[simp] theorem State.readV_skipIf (s : State) (c : Bool) (q : Reg) : (s.skipIf c).readV q = s.readV q := by
  cases c <;> rfl

@[simp] theorem State.readMem_skipIf (s : State) (c : Bool) (a : Nat) : (s.skipIf c).readMem a = s.readMem a := by
  cases c <;> rfl

/-! ### push: what it leaves alone -/

@[simp] theorem State.push_v (s : State) (ret : Word) : (s.push ret).v = s.v := by unfold State.push; split <;> rfl
@[simp] theorem State.push_i (s : State) (ret : Word) : (s.push ret).i = s.i := by unfold State.push; split <;> rfl
@[simp] theorem State.push_pc (s : State) (ret : Word) : (s.push ret).pc = s.pc := by unfold State.push; split <;> rfl
@[simp] theorem State.push_dt (s : State) (ret : Word) : (s.push ret).dt = s.dt := by unfold State.push; split <;> rfl
@[simp] theorem State.push_st (s : State) (ret : Word) : (s.push ret).st = s.st := by unfold State.push; split <;> rfl
@[simp] theorem State.push_mem (s : State) (ret : Word) : (s.push ret).mem = s.mem := by unfold State.push; split <;> rfl
@[simp] theorem State.push_fb (s : State) (ret : Word) : (s.push ret).fb = s.fb := by unfold State.push; split <;> rfl
@[simp] theorem State.push_draw (s : State) (ret : Word) : (s.push ret).draw = s.draw := by unfold State.push; split <;> rfl
@[simp] theorem State.push_waiting (s : State) (ret : Word) : (s.push ret).waiting = s.waiting := by unfold State.push; split <;> rfl
@[simp] theorem State.push_waitReg (s : State) (ret : Word) : (s.push ret).waitReg = s.waitReg := by unfold State.push; split <;> rfl
@[simp] theorem State.push_fault (s : State) (ret : Word) : (s.push ret).fault = s.fault := by unfold State.push; split <;> rfl
@[simp] theorem State.push_input (s : State) (ret : Word) : (s.push ret).input = s.input := by unfold State.push; split <;> rfl
@[simp] theorem State.push_supplied (s : State) (ret : Word) : (s.push ret).supplied = s.supplied := by unfold State.push; split <;> rfl
@[simp] theorem State.push_freeTick (s : State) (ret : Word) : (s.push ret).freeTick = s.freeTick := by unfold State.push; split <;> rfl

/-! ### pop: what it leaves alone -/

@[simp] theorem State.pop_v (s : State) : (s.pop).v = s.v := by unfold State.pop; split <;> rfl
@[simp] theorem State.pop_i (s : State) : (s.pop).i = s.i := by unfold State.pop; split <;> rfl
@[simp] theorem State.pop_pc (s : State) : (s.pop).pc = s.pc := by unfold State.pop; split <;> rfl
@[simp] theorem State.pop_dt (s : State) : (s.pop).dt = s.dt := by unfold State.pop; split <;> rfl
@[simp] theorem State.pop_st (s : State) : (s.pop).st = s.st := by unfold State.pop; split <;> rfl
@[simp] theorem State.pop_mem (s : State) : (s.pop).mem = s.mem := by unfold State.pop; split <;> rfl
@[simp] theorem State.pop_fb (s : State) : (s.pop).fb = s.fb := by unfold State.pop; split <;> rfl
@[simp] theorem State.pop_draw (s : State) : (s.pop).draw = s.draw := by unfold State.pop; split <;> rfl
@[simp] theorem State.pop_waiting (s : State) : (s.pop).waiting = s.waiting := by unfold State.pop; split <;> rfl
@[simp] theorem State.pop_waitReg (s : State) : (s.pop).waitReg = s.waitReg := by unfold State.pop; split <;> rfl
@[simp] theorem State.pop_fault (s : State) : (s.pop).fault = s.fault := by unfold State.pop; split <;> rfl
@[simp] theorem State.pop_input (s : State) : (s.pop).input = s.input := by unfold State.pop; split <;> rfl
@[simp] theorem State.pop_supplied (s : State) : (s.pop).supplied = s.supplied := by unfold State.pop; split <;> rfl
@[simp] theorem State.pop_freeTick (s : State) : (s.pop).freeTick = s.freeTick := by unfold State.pop; split <;> rfl

/-- A pop clears no entry (R100). -/
@[simp] theorem State.pop_stack (s : State) : s.pop.stack = s.stack := by unfold State.pop; split <;> rfl

/-! ### resultThenFlag: what it leaves alone -/

@[simp] theorem State.resultThenFlag_i (s : State) (x : Reg) (a f : Byte) : (s.resultThenFlag x a f).i = s.i := rfl
@[simp] theorem State.resultThenFlag_pc (s : State) (x : Reg) (a f : Byte) : (s.resultThenFlag x a f).pc = s.pc := rfl
@[simp] theorem State.resultThenFlag_sp (s : State) (x : Reg) (a f : Byte) : (s.resultThenFlag x a f).sp = s.sp := rfl
@[simp] theorem State.resultThenFlag_stack (s : State) (x : Reg) (a f : Byte) : (s.resultThenFlag x a f).stack = s.stack := rfl
@[simp] theorem State.resultThenFlag_dt (s : State) (x : Reg) (a f : Byte) : (s.resultThenFlag x a f).dt = s.dt := rfl
@[simp] theorem State.resultThenFlag_st (s : State) (x : Reg) (a f : Byte) : (s.resultThenFlag x a f).st = s.st := rfl
@[simp] theorem State.resultThenFlag_mem (s : State) (x : Reg) (a f : Byte) : (s.resultThenFlag x a f).mem = s.mem := rfl
@[simp] theorem State.resultThenFlag_fb (s : State) (x : Reg) (a f : Byte) : (s.resultThenFlag x a f).fb = s.fb := rfl
@[simp] theorem State.resultThenFlag_draw (s : State) (x : Reg) (a f : Byte) : (s.resultThenFlag x a f).draw = s.draw := rfl
@[simp] theorem State.resultThenFlag_waiting (s : State) (x : Reg) (a f : Byte) : (s.resultThenFlag x a f).waiting = s.waiting := rfl
@[simp] theorem State.resultThenFlag_waitReg (s : State) (x : Reg) (a f : Byte) : (s.resultThenFlag x a f).waitReg = s.waitReg := rfl
@[simp] theorem State.resultThenFlag_fault (s : State) (x : Reg) (a f : Byte) : (s.resultThenFlag x a f).fault = s.fault := rfl
@[simp] theorem State.resultThenFlag_stackEvent (s : State) (x : Reg) (a f : Byte) : (s.resultThenFlag x a f).stackEvent = s.stackEvent := rfl
@[simp] theorem State.resultThenFlag_input (s : State) (x : Reg) (a f : Byte) : (s.resultThenFlag x a f).input = s.input := rfl
@[simp] theorem State.resultThenFlag_supplied (s : State) (x : Reg) (a f : Byte) : (s.resultThenFlag x a f).supplied = s.supplied := rfl
@[simp] theorem State.resultThenFlag_freeTick (s : State) (x : Reg) (a f : Byte) : (s.resultThenFlag x a f).freeTick = s.freeTick := rfl

/-! ### flagThenResult: what it leaves alone -/

@[simp] theorem State.flagThenResult_i (s : State) (o : Config.VfOrder) (x : Reg) (f : Byte) (g : State → Byte) : (s.flagThenResult o x f g).i = s.i := by cases o <;> rfl
@[simp] theorem State.flagThenResult_pc (s : State) (o : Config.VfOrder) (x : Reg) (f : Byte) (g : State → Byte) : (s.flagThenResult o x f g).pc = s.pc := by cases o <;> rfl
@[simp] theorem State.flagThenResult_sp (s : State) (o : Config.VfOrder) (x : Reg) (f : Byte) (g : State → Byte) : (s.flagThenResult o x f g).sp = s.sp := by cases o <;> rfl
@[simp] theorem State.flagThenResult_stack (s : State) (o : Config.VfOrder) (x : Reg) (f : Byte) (g : State → Byte) : (s.flagThenResult o x f g).stack = s.stack := by cases o <;> rfl
@[simp] theorem State.flagThenResult_dt (s : State) (o : Config.VfOrder) (x : Reg) (f : Byte) (g : State → Byte) : (s.flagThenResult o x f g).dt = s.dt := by cases o <;> rfl
@[simp] theorem State.flagThenResult_st (s : State) (o : Config.VfOrder) (x : Reg) (f : Byte) (g : State → Byte) : (s.flagThenResult o x f g).st = s.st := by cases o <;> rfl
@[simp] theorem State.flagThenResult_mem (s : State) (o : Config.VfOrder) (x : Reg) (f : Byte) (g : State → Byte) : (s.flagThenResult o x f g).mem = s.mem := by cases o <;> rfl
@[simp] theorem State.flagThenResult_fb (s : State) (o : Config.VfOrder) (x : Reg) (f : Byte) (g : State → Byte) : (s.flagThenResult o x f g).fb = s.fb := by cases o <;> rfl
@[simp] theorem State.flagThenResult_draw (s : State) (o : Config.VfOrder) (x : Reg) (f : Byte) (g : State → Byte) : (s.flagThenResult o x f g).draw = s.draw := by cases o <;> rfl
@[simp] theorem State.flagThenResult_waiting (s : State) (o : Config.VfOrder) (x : Reg) (f : Byte) (g : State → Byte) : (s.flagThenResult o x f g).waiting = s.waiting := by cases o <;> rfl
@[simp] theorem State.flagThenResult_waitReg (s : State) (o : Config.VfOrder) (x : Reg) (f : Byte) (g : State → Byte) : (s.flagThenResult o x f g).waitReg = s.waitReg := by cases o <;> rfl
@[simp] theorem State.flagThenResult_fault (s : State) (o : Config.VfOrder) (x : Reg) (f : Byte) (g : State → Byte) : (s.flagThenResult o x f g).fault = s.fault := by cases o <;> rfl
@[simp] theorem State.flagThenResult_stackEvent (s : State) (o : Config.VfOrder) (x : Reg) (f : Byte) (g : State → Byte) : (s.flagThenResult o x f g).stackEvent = s.stackEvent := by cases o <;> rfl
@[simp] theorem State.flagThenResult_input (s : State) (o : Config.VfOrder) (x : Reg) (f : Byte) (g : State → Byte) : (s.flagThenResult o x f g).input = s.input := by cases o <;> rfl
@[simp] theorem State.flagThenResult_supplied (s : State) (o : Config.VfOrder) (x : Reg) (f : Byte) (g : State → Byte) : (s.flagThenResult o x f g).supplied = s.supplied := by cases o <;> rfl
@[simp] theorem State.flagThenResult_freeTick (s : State) (o : Config.VfOrder) (x : Reg) (f : Byte) (g : State → Byte) : (s.flagThenResult o x f g).freeTick = s.freeTick := by cases o <;> rfl

/-! ### loadRegs: what it leaves alone -/

@[simp] theorem State.loadRegs_i (s : State) (rs : List Reg) : (s.loadRegs rs).i = s.i := by obtain ⟨_, h⟩ := s.loadRegs_eq rs; rw [h]
@[simp] theorem State.loadRegs_pc (s : State) (rs : List Reg) : (s.loadRegs rs).pc = s.pc := by obtain ⟨_, h⟩ := s.loadRegs_eq rs; rw [h]
@[simp] theorem State.loadRegs_sp (s : State) (rs : List Reg) : (s.loadRegs rs).sp = s.sp := by obtain ⟨_, h⟩ := s.loadRegs_eq rs; rw [h]
@[simp] theorem State.loadRegs_stack (s : State) (rs : List Reg) : (s.loadRegs rs).stack = s.stack := by obtain ⟨_, h⟩ := s.loadRegs_eq rs; rw [h]
@[simp] theorem State.loadRegs_dt (s : State) (rs : List Reg) : (s.loadRegs rs).dt = s.dt := by obtain ⟨_, h⟩ := s.loadRegs_eq rs; rw [h]
@[simp] theorem State.loadRegs_st (s : State) (rs : List Reg) : (s.loadRegs rs).st = s.st := by obtain ⟨_, h⟩ := s.loadRegs_eq rs; rw [h]
@[simp] theorem State.loadRegs_mem (s : State) (rs : List Reg) : (s.loadRegs rs).mem = s.mem := by obtain ⟨_, h⟩ := s.loadRegs_eq rs; rw [h]
@[simp] theorem State.loadRegs_fb (s : State) (rs : List Reg) : (s.loadRegs rs).fb = s.fb := by obtain ⟨_, h⟩ := s.loadRegs_eq rs; rw [h]
@[simp] theorem State.loadRegs_draw (s : State) (rs : List Reg) : (s.loadRegs rs).draw = s.draw := by obtain ⟨_, h⟩ := s.loadRegs_eq rs; rw [h]
@[simp] theorem State.loadRegs_waiting (s : State) (rs : List Reg) : (s.loadRegs rs).waiting = s.waiting := by obtain ⟨_, h⟩ := s.loadRegs_eq rs; rw [h]
@[simp] theorem State.loadRegs_waitReg (s : State) (rs : List Reg) : (s.loadRegs rs).waitReg = s.waitReg := by obtain ⟨_, h⟩ := s.loadRegs_eq rs; rw [h]
@[simp] theorem State.loadRegs_fault (s : State) (rs : List Reg) : (s.loadRegs rs).fault = s.fault := by obtain ⟨_, h⟩ := s.loadRegs_eq rs; rw [h]
@[simp] theorem State.loadRegs_stackEvent (s : State) (rs : List Reg) : (s.loadRegs rs).stackEvent = s.stackEvent := by obtain ⟨_, h⟩ := s.loadRegs_eq rs; rw [h]
@[simp] theorem State.loadRegs_input (s : State) (rs : List Reg) : (s.loadRegs rs).input = s.input := by obtain ⟨_, h⟩ := s.loadRegs_eq rs; rw [h]
@[simp] theorem State.loadRegs_supplied (s : State) (rs : List Reg) : (s.loadRegs rs).supplied = s.supplied := by obtain ⟨_, h⟩ := s.loadRegs_eq rs; rw [h]
@[simp] theorem State.loadRegs_freeTick (s : State) (rs : List Reg) : (s.loadRegs rs).freeTick = s.freeTick := by obtain ⟨_, h⟩ := s.loadRegs_eq rs; rw [h]

/-! ### storeRegs: what it leaves alone -/

@[simp] theorem State.storeRegs_v (s : State) (rs : List Reg) : (s.storeRegs rs).v = s.v := by obtain ⟨_, h⟩ := s.storeRegs_eq rs; rw [h]
@[simp] theorem State.storeRegs_i (s : State) (rs : List Reg) : (s.storeRegs rs).i = s.i := by obtain ⟨_, h⟩ := s.storeRegs_eq rs; rw [h]
@[simp] theorem State.storeRegs_pc (s : State) (rs : List Reg) : (s.storeRegs rs).pc = s.pc := by obtain ⟨_, h⟩ := s.storeRegs_eq rs; rw [h]
@[simp] theorem State.storeRegs_sp (s : State) (rs : List Reg) : (s.storeRegs rs).sp = s.sp := by obtain ⟨_, h⟩ := s.storeRegs_eq rs; rw [h]
@[simp] theorem State.storeRegs_stack (s : State) (rs : List Reg) : (s.storeRegs rs).stack = s.stack := by obtain ⟨_, h⟩ := s.storeRegs_eq rs; rw [h]
@[simp] theorem State.storeRegs_dt (s : State) (rs : List Reg) : (s.storeRegs rs).dt = s.dt := by obtain ⟨_, h⟩ := s.storeRegs_eq rs; rw [h]
@[simp] theorem State.storeRegs_st (s : State) (rs : List Reg) : (s.storeRegs rs).st = s.st := by obtain ⟨_, h⟩ := s.storeRegs_eq rs; rw [h]
@[simp] theorem State.storeRegs_fb (s : State) (rs : List Reg) : (s.storeRegs rs).fb = s.fb := by obtain ⟨_, h⟩ := s.storeRegs_eq rs; rw [h]
@[simp] theorem State.storeRegs_draw (s : State) (rs : List Reg) : (s.storeRegs rs).draw = s.draw := by obtain ⟨_, h⟩ := s.storeRegs_eq rs; rw [h]
@[simp] theorem State.storeRegs_waiting (s : State) (rs : List Reg) : (s.storeRegs rs).waiting = s.waiting := by obtain ⟨_, h⟩ := s.storeRegs_eq rs; rw [h]
@[simp] theorem State.storeRegs_waitReg (s : State) (rs : List Reg) : (s.storeRegs rs).waitReg = s.waitReg := by obtain ⟨_, h⟩ := s.storeRegs_eq rs; rw [h]
@[simp] theorem State.storeRegs_fault (s : State) (rs : List Reg) : (s.storeRegs rs).fault = s.fault := by obtain ⟨_, h⟩ := s.storeRegs_eq rs; rw [h]
@[simp] theorem State.storeRegs_stackEvent (s : State) (rs : List Reg) : (s.storeRegs rs).stackEvent = s.stackEvent := by obtain ⟨_, h⟩ := s.storeRegs_eq rs; rw [h]
@[simp] theorem State.storeRegs_input (s : State) (rs : List Reg) : (s.storeRegs rs).input = s.input := by obtain ⟨_, h⟩ := s.storeRegs_eq rs; rw [h]
@[simp] theorem State.storeRegs_supplied (s : State) (rs : List Reg) : (s.storeRegs rs).supplied = s.supplied := by obtain ⟨_, h⟩ := s.storeRegs_eq rs; rw [h]
@[simp] theorem State.storeRegs_freeTick (s : State) (rs : List Reg) : (s.storeRegs rs).freeTick = s.freeTick := by obtain ⟨_, h⟩ := s.storeRegs_eq rs; rw [h]

/-! ### sample: what it leaves alone -/

@[simp] theorem State.sample_v (s : State) : (s.sample).v = s.v := by obtain ⟨_, _, _, h⟩ := s.sample_eq; rw [h]
@[simp] theorem State.sample_i (s : State) : (s.sample).i = s.i := by obtain ⟨_, _, _, h⟩ := s.sample_eq; rw [h]
@[simp] theorem State.sample_pc (s : State) : (s.sample).pc = s.pc := by obtain ⟨_, _, _, h⟩ := s.sample_eq; rw [h]
@[simp] theorem State.sample_sp (s : State) : (s.sample).sp = s.sp := by obtain ⟨_, _, _, h⟩ := s.sample_eq; rw [h]
@[simp] theorem State.sample_stack (s : State) : (s.sample).stack = s.stack := by obtain ⟨_, _, _, h⟩ := s.sample_eq; rw [h]
@[simp] theorem State.sample_dt (s : State) : (s.sample).dt = s.dt := by obtain ⟨_, _, _, h⟩ := s.sample_eq; rw [h]
@[simp] theorem State.sample_st (s : State) : (s.sample).st = s.st := by obtain ⟨_, _, _, h⟩ := s.sample_eq; rw [h]
@[simp] theorem State.sample_mem (s : State) : (s.sample).mem = s.mem := by obtain ⟨_, _, _, h⟩ := s.sample_eq; rw [h]
@[simp] theorem State.sample_fb (s : State) : (s.sample).fb = s.fb := by obtain ⟨_, _, _, h⟩ := s.sample_eq; rw [h]
@[simp] theorem State.sample_draw (s : State) : (s.sample).draw = s.draw := by obtain ⟨_, _, _, h⟩ := s.sample_eq; rw [h]
@[simp] theorem State.sample_waiting (s : State) : (s.sample).waiting = s.waiting := by obtain ⟨_, _, _, h⟩ := s.sample_eq; rw [h]
@[simp] theorem State.sample_waitReg (s : State) : (s.sample).waitReg = s.waitReg := by obtain ⟨_, _, _, h⟩ := s.sample_eq; rw [h]
@[simp] theorem State.sample_fault (s : State) : (s.sample).fault = s.fault := by obtain ⟨_, _, _, h⟩ := s.sample_eq; rw [h]
@[simp] theorem State.sample_stackEvent (s : State) : (s.sample).stackEvent = s.stackEvent := by obtain ⟨_, _, _, h⟩ := s.sample_eq; rw [h]

/-! ### beginStep: what it leaves alone -/

@[simp] theorem State.beginStep_v (s : State) : (s.beginStep).v = s.v := by obtain ⟨_, _, _, h⟩ := s.beginStep_eq; rw [h]
@[simp] theorem State.beginStep_i (s : State) : (s.beginStep).i = s.i := by obtain ⟨_, _, _, h⟩ := s.beginStep_eq; rw [h]
@[simp] theorem State.beginStep_pc (s : State) : (s.beginStep).pc = s.pc := by obtain ⟨_, _, _, h⟩ := s.beginStep_eq; rw [h]
@[simp] theorem State.beginStep_sp (s : State) : (s.beginStep).sp = s.sp := by obtain ⟨_, _, _, h⟩ := s.beginStep_eq; rw [h]
@[simp] theorem State.beginStep_stack (s : State) : (s.beginStep).stack = s.stack := by obtain ⟨_, _, _, h⟩ := s.beginStep_eq; rw [h]
@[simp] theorem State.beginStep_dt (s : State) : (s.beginStep).dt = s.dt := by obtain ⟨_, _, _, h⟩ := s.beginStep_eq; rw [h]
@[simp] theorem State.beginStep_st (s : State) : (s.beginStep).st = s.st := by obtain ⟨_, _, _, h⟩ := s.beginStep_eq; rw [h]
@[simp] theorem State.beginStep_mem (s : State) : (s.beginStep).mem = s.mem := by obtain ⟨_, _, _, h⟩ := s.beginStep_eq; rw [h]
@[simp] theorem State.beginStep_fb (s : State) : (s.beginStep).fb = s.fb := by obtain ⟨_, _, _, h⟩ := s.beginStep_eq; rw [h]
@[simp] theorem State.beginStep_waiting (s : State) : (s.beginStep).waiting = s.waiting := by obtain ⟨_, _, _, h⟩ := s.beginStep_eq; rw [h]
@[simp] theorem State.beginStep_waitReg (s : State) : (s.beginStep).waitReg = s.waitReg := by obtain ⟨_, _, _, h⟩ := s.beginStep_eq; rw [h]
@[simp] theorem State.beginStep_fault (s : State) : (s.beginStep).fault = s.fault := by obtain ⟨_, _, _, h⟩ := s.beginStep_eq; rw [h]
@[simp] theorem State.beginStep_stackEvent (s : State) : (s.beginStep).stackEvent = s.stackEvent := by obtain ⟨_, _, _, h⟩ := s.beginStep_eq; rw [h]

@[simp] theorem State.beginStep_draw (s : State) : s.beginStep.draw = false := rfl

/-! ### beginInstr: what it leaves alone -/

@[simp] theorem State.beginInstr_v (s : State) : (s.beginInstr).v = s.v := by obtain ⟨_, _, _, h⟩ := s.beginInstr_eq; rw [h]
@[simp] theorem State.beginInstr_i (s : State) : (s.beginInstr).i = s.i := by obtain ⟨_, _, _, h⟩ := s.beginInstr_eq; rw [h]
@[simp] theorem State.beginInstr_pc (s : State) : (s.beginInstr).pc = s.pc := by obtain ⟨_, _, _, h⟩ := s.beginInstr_eq; rw [h]
@[simp] theorem State.beginInstr_sp (s : State) : (s.beginInstr).sp = s.sp := by obtain ⟨_, _, _, h⟩ := s.beginInstr_eq; rw [h]
@[simp] theorem State.beginInstr_stack (s : State) : (s.beginInstr).stack = s.stack := by obtain ⟨_, _, _, h⟩ := s.beginInstr_eq; rw [h]
@[simp] theorem State.beginInstr_mem (s : State) : (s.beginInstr).mem = s.mem := by obtain ⟨_, _, _, h⟩ := s.beginInstr_eq; rw [h]
@[simp] theorem State.beginInstr_fb (s : State) : (s.beginInstr).fb = s.fb := by obtain ⟨_, _, _, h⟩ := s.beginInstr_eq; rw [h]
@[simp] theorem State.beginInstr_waiting (s : State) : (s.beginInstr).waiting = s.waiting := by obtain ⟨_, _, _, h⟩ := s.beginInstr_eq; rw [h]
@[simp] theorem State.beginInstr_waitReg (s : State) : (s.beginInstr).waitReg = s.waitReg := by obtain ⟨_, _, _, h⟩ := s.beginInstr_eq; rw [h]
@[simp] theorem State.beginInstr_fault (s : State) : (s.beginInstr).fault = s.fault := by obtain ⟨_, _, _, h⟩ := s.beginInstr_eq; rw [h]
@[simp] theorem State.beginInstr_stackEvent (s : State) : (s.beginInstr).stackEvent = s.stackEvent := by obtain ⟨_, _, _, h⟩ := s.beginInstr_eq; rw [h]

@[simp] theorem State.beginInstr_draw (s : State) : s.beginInstr.draw = false := rfl

/-- DT as the instruction of the step finds it (R84). -/
@[simp] theorem State.beginInstr_dt (s : State) : s.beginInstr.dt = countdown s.dt := by
  obtain ⟨_, _, _, h⟩ := s.beginInstr_eq; rw [h]

/-- ST as the instruction of the step finds it (R84). -/
@[simp] theorem State.beginInstr_st (s : State) : s.beginInstr.st = countdown s.st := by
  obtain ⟨_, _, _, h⟩ := s.beginInstr_eq; rw [h]

/-- A run of any machine whose first step answers a next state goes on from there. -/
theorem run_next {M : Host.Core} {n : Nat} {s s' : M.State} (h : M.step s = .next s') :
    M.run (n + 1) s = M.run n s' := by
  simp [Host.Core.run, h]

/-- The same for this machine, in its own names. -/
theorem core_run_next {s s' : State} (n : Nat) (h : step s = .next s') :
    Host.Core.run Sys2Proof.core (n + 1) s = Host.Core.run Sys2Proof.core n s' :=
  run_next (M := Sys2Proof.core) h

/-- A countdown as a number: down by 1, no further than 0 (R84). -/
theorem countdown_toNat (t : Byte) : (countdown t).toNat = t.toNat - 1 := by
  unfold countdown
  split
  · next h => subst h; rfl
  · next h =>
    have h0 : t.toNat ≠ 0 := fun e => h (BitVec.eq_of_toNat_eq e)
    have := t.isLt
    rw [BitVec.toNat_sub]
    have e : (1 : Byte).toNat = 1 := rfl
    rw [e]
    omega

/-- A widened address is the same number (R68). -/
theorem zextAddr_toNat (nnn : Addr12) : (zextAddr nnn).toNat = nnn.toNat := by
  have := nnn.isLt
  simp only [zextAddr, BitVec.toNat_setWidth]
  omega

/-- A widened byte is the same number (R68). -/
theorem zextByte_toNat (b : Byte) : (zextByte b).toNat = b.toNat := by
  have := b.isLt
  simp only [zextByte, BitVec.toNat_setWidth]
  omega

end Sys2Proof.Machine
end

