-- ==== Sys2Proof/Laws/PerInstr.lean ====
section
/-! SUPPORT. Facts about every instruction as syntax, one lemma per constructor. -/

namespace Sys2Proof.Laws.FitsRow

/-- An instruction's word is one of its row of the opcode map: "(w & mask) == match" (spec/30_encoding.md R71). -/
def Statement (i : Instr) : Prop := encode i &&& (rowOf i).mask = (rowOf i).bits

theorem cls : Statement .cls := rfl

theorem ret : Statement .ret := rfl

theorem jp (nnn : Addr12) : Statement (.jp nnn) := encAddr_and_F000 1 nnn

theorem call (nnn : Addr12) : Statement (.call nnn) := encAddr_and_F000 2 nnn

theorem seByte (x : Reg) (kk : Byte) : Statement (.seByte x kk) := encXkk_and_F000 3 x kk

theorem sneByte (x : Reg) (kk : Byte) : Statement (.sneByte x kk) := encXkk_and_F000 4 x kk

theorem seReg (x : Reg) (y : Reg) : Statement (.seReg x y) := encXyn_and_F00F 5 x y 0

theorem sneReg (x : Reg) (y : Reg) : Statement (.sneReg x y) := encXyn_and_F00F 9 x y 0

theorem ldByte (x : Reg) (kk : Byte) : Statement (.ldByte x kk) := encXkk_and_F000 6 x kk

theorem addByte (x : Reg) (kk : Byte) : Statement (.addByte x kk) := encXkk_and_F000 7 x kk

theorem ldReg (x : Reg) (y : Reg) : Statement (.ldReg x y) := encXyn_and_F00F 8 x y 0

theorem orReg (x : Reg) (y : Reg) : Statement (.orReg x y) := encXyn_and_F00F 8 x y 1

theorem andReg (x : Reg) (y : Reg) : Statement (.andReg x y) := encXyn_and_F00F 8 x y 2

theorem xorReg (x : Reg) (y : Reg) : Statement (.xorReg x y) := encXyn_and_F00F 8 x y 3

theorem addReg (x : Reg) (y : Reg) : Statement (.addReg x y) := encXyn_and_F00F 8 x y 4

theorem sub (x : Reg) (y : Reg) : Statement (.sub x y) := encXyn_and_F00F 8 x y 5

theorem shr (x : Reg) (y : Reg) : Statement (.shr x y) := encXyn_and_F00F 8 x y 6

theorem subn (x : Reg) (y : Reg) : Statement (.subn x y) := encXyn_and_F00F 8 x y 7

theorem shl (x : Reg) (y : Reg) : Statement (.shl x y) := encXyn_and_F00F 8 x y 0xE

theorem ldI (nnn : Addr12) : Statement (.ldI nnn) := encAddr_and_F000 0xA nnn

theorem jpV0 (nnn : Addr12) : Statement (.jpV0 nnn) := encAddr_and_F000 0xB nnn

theorem rnd (x : Reg) (kk : Byte) : Statement (.rnd x kk) := encXkk_and_F000 0xC x kk

theorem drw (x : Reg) (y : Reg) (n : Nibble) : Statement (.drw x y n) := encXyn_and_F000 0xD x y n

theorem skp (x : Reg) : Statement (.skp x) := encXkk_and_F0FF 0xE x 0x9E

theorem sknp (x : Reg) : Statement (.sknp x) := encXkk_and_F0FF 0xE x 0xA1

theorem ldVxDT (x : Reg) : Statement (.ldVxDT x) := encXkk_and_F0FF 0xF x 0x07

theorem ldVxK (x : Reg) : Statement (.ldVxK x) := encXkk_and_F0FF 0xF x 0x0A

theorem ldDTVx (x : Reg) : Statement (.ldDTVx x) := encXkk_and_F0FF 0xF x 0x15

theorem ldSTVx (x : Reg) : Statement (.ldSTVx x) := encXkk_and_F0FF 0xF x 0x18

theorem addIVx (x : Reg) : Statement (.addIVx x) := encXkk_and_F0FF 0xF x 0x1E

theorem ldFVx (x : Reg) : Statement (.ldFVx x) := encXkk_and_F0FF 0xF x 0x29

theorem ldBVx (x : Reg) : Statement (.ldBVx x) := encXkk_and_F0FF 0xF x 0x33

theorem ldMemVx (x : Reg) : Statement (.ldMemVx x) := encXkk_and_F0FF 0xF x 0x55

theorem ldVxMem (x : Reg) : Statement (.ldVxMem x) := encXkk_and_F0FF 0xF x 0x65

end Sys2Proof.Laws.FitsRow
end

