-- ==== Sys2Proof/Laws/Screen.lean ====
section
/-! SUPPORT. The laws of the framebuffer: reading a pixel after one is set, after the screen is cleared, and after one
sprite bit. -/

namespace Sys2Proof.Machine

/-- Reading after setting a pixel. -/
theorem Screen.pixel_setPixel (fb : Screen) (r r' : Fin 32) (c c' : Fin 64) (b : Bool) :
    (fb.setPixel r c b).pixel r' c' = if r' = r ∧ c' = c then b else fb.pixel r' c' := by
  simp only [Screen.pixel, Screen.setPixel]
  by_cases hr : r' = r
  · subst hr
    by_cases hc : c' = c
    · subst hc; simp
    · have : c.val ≠ c'.val := fun e => hc (Fin.ext e.symm)
      simp [hc, this]
  · have : r.val ≠ r'.val := fun e => hr (Fin.ext e.symm)
    simp [hr, this]

/-- Every pixel of a cleared screen is off. -/
@[simp] theorem Screen.pixel_clear (r : Fin 32) (c : Fin 64) : Screen.clear.pixel r c = false := by
  simp [Screen.pixel, Screen.clear]

/-- Two framebuffers with equal pixels are equal. -/
theorem Screen.ext_pixel {f g : Screen} (h : ∀ r c, f.pixel r c = g.pixel r c) : f = g := by
  apply Vector.ext
  intro i hi
  apply Vector.ext
  intro j hj
  exact h ⟨i, hi⟩ ⟨j, hj⟩

/-- One sprite bit changes its own pixel, by XOR, and no other. -/
theorem Plot.pixel_bit (p : Plot) (r r' : Fin 32) (c c' : Fin 64) (b : Bool) :
    (p.bit r c b).fb.pixel r' c' = xor (p.fb.pixel r' c') (decide (r' = r ∧ c' = c) && b) := by
  simp only [Plot.bit, Screen.pixel_setPixel]
  by_cases h : r' = r ∧ c' = c
  · obtain ⟨rfl, rfl⟩ := h; simp
  · simp [h]

/-- One sprite bit records a collision exactly where a 1 bit meets a 1 pixel. -/
theorem Plot.hit_bit (p : Plot) (r : Fin 32) (c : Fin 64) (b : Bool) :
    (p.bit r c b).hit = (p.hit || (b && p.fb.pixel r c)) := rfl

end Sys2Proof.Machine
end

