-- ==== Sys2Proof/Tests/Slice0.lean ====
section
/-! SUPPORT. The model's own tests. Expected results come from spec/95_test_vectors.md (the row is named) or from the
rule cited; and for every statement with hypotheses a witness: a concrete state and operands that meet all of them. -/

namespace Sys2Proof.Tests

open Sys2Proof Sys2Proof.Machine

/-! ### Helpers -/

/-- Whether an outcome is a next state with this property. -/
def answers (o : Host.Outcome State Fault Refusal) (p : State → Bool) : Bool :=
  match o with
  | .next t => p t
  | .fault _ => false
  | .refused _ => false

/-- Some registers, at the values given. -/
def regs (l : List (Reg × Byte)) (s : State) : State := l.foldl (fun t p => t.writeV p.1 p.2) s

/-- Some bytes, from an address on. -/
def bytes (a : Nat) (l : List Byte) (s : State) : State := s.writeBytes a l

/-- A word at PC and one laid-out input, no key down and the random byte 0. -/
def ready (w : Nat) (s : State) : State := (s.withFetchWord 16 w).withInputs [⟨0, 0⟩]

/-- The same with this input. -/
def readyIn (w : Nat) (keys : BitVec 16) (rnd : Byte) (s : State) : State :=
  (s.withFetchWord 16 w).withInputs [⟨keys, rnd⟩]

/-- The state after reset. -/
abbrev s0 : State := State.reset

/-! ### WellFormed: each check refuses a word of a neighbouring instruction -/

theorem test_wf_refuses_unknown_00E0 : (Decoded.unknown 0x00E0).wf = false := by decide
theorem test_wf_refuses_unknown_00EE : (Decoded.unknown 0x00EE).wf = false := by decide
theorem test_wf_refuses_unknown_5120 : (Decoded.unknown 0x5120).wf = false := by decide
theorem test_wf_refuses_unknown_8AB4 : (Decoded.unknown 0x8AB4).wf = false := by decide
theorem test_wf_refuses_unknown_9120 : (Decoded.unknown 0x9120).wf = false := by decide
theorem test_wf_refuses_unknown_E19E : (Decoded.unknown 0xE19E).wf = false := by decide
theorem test_wf_refuses_unknown_F165 : (Decoded.unknown 0xF165).wf = false := by decide
theorem test_wf_refuses_unknown_1ABC : (Decoded.unknown 0x1ABC).wf = false := by decide
theorem test_wf_admits_unknown_5121 : (Decoded.unknown 0x5121).wf = true := by decide

/-! ### Decode: a word of every constructor, written from R71's row (X rows of 95_test_vectors.md where there is one) -/

theorem test_decode_cls : decode 0x00E0 = .instr .cls := by decide -- X1
theorem test_decode_ret : decode 0x00EE = .instr .ret := by decide -- X2
theorem test_decode_jp : decode 0x1ABC = .instr (.jp 0xABC) := by decide -- X6
theorem test_decode_call : decode 0x2345 = .instr (.call 0x345) := by decide -- X7
theorem test_decode_seByte : decode 0x3A5C = .instr (.seByte 0xA 0x5C) := by decide
theorem test_decode_sneByte : decode 0x4B6D = .instr (.sneByte 0xB 0x6D) := by decide
theorem test_decode_seReg : decode 0x5120 = .instr (.seReg 1 2) := by decide -- X8
theorem test_decode_sneReg : decode 0x93C0 = .instr (.sneReg 3 0xC) := by decide
theorem test_decode_ldByte : decode 0x6142 = .instr (.ldByte 1 0x42) := by decide -- S1
theorem test_decode_addByte : decode 0x7EF1 = .instr (.addByte 0xE 0xF1) := by decide
theorem test_decode_ldReg : decode 0x8120 = .instr (.ldReg 1 2) := by decide
theorem test_decode_orReg : decode 0x8AB1 = .instr (.orReg 0xA 0xB) := by decide
theorem test_decode_andReg : decode 0x8BA2 = .instr (.andReg 0xB 0xA) := by decide
theorem test_decode_xorReg : decode 0x8053 = .instr (.xorReg 0 5) := by decide
theorem test_decode_addReg : decode 0x8AB4 = .instr (.addReg 0xA 0xB) := by decide -- X10
theorem test_decode_sub : decode 0x8F15 = .instr (.sub 0xF 1) := by decide
theorem test_decode_shr : decode 0x8126 = .instr (.shr 1 2) := by decide
theorem test_decode_subn : decode 0x8347 = .instr (.subn 3 4) := by decide
theorem test_decode_shl : decode 0x856E = .instr (.shl 5 6) := by decide
theorem test_decode_ldI : decode 0xA123 = .instr (.ldI 0x123) := by decide
theorem test_decode_jpV0 : decode 0xBFFE = .instr (.jpV0 0xFFE) := by decide
theorem test_decode_rnd : decode 0xC0FF = .instr (.rnd 0 0xFF) := by decide -- X22
theorem test_decode_drw : decode 0xD12F = .instr (.drw 1 2 0xF) := by decide -- X14
theorem test_decode_skp : decode 0xE19E = .instr (.skp 1) := by decide -- X15
theorem test_decode_sknp : decode 0xE2A1 = .instr (.sknp 2) := by decide
theorem test_decode_ldVxDT : decode 0xF307 = .instr (.ldVxDT 3) := by decide
theorem test_decode_ldVxK : decode 0xF00A = .instr (.ldVxK 0) := by decide -- X20
theorem test_decode_ldDTVx : decode 0xF415 = .instr (.ldDTVx 4) := by decide
theorem test_decode_ldSTVx : decode 0xF518 = .instr (.ldSTVx 5) := by decide
theorem test_decode_addIVx : decode 0xFF1E = .instr (.addIVx 0xF) := by decide -- X19
theorem test_decode_ldFVx : decode 0xF629 = .instr (.ldFVx 6) := by decide
theorem test_decode_ldBVx : decode 0xF233 = .instr (.ldBVx 2) := by decide -- S4
theorem test_decode_ldMemVx : decode 0xF755 = .instr (.ldMemVx 7) := by decide
theorem test_decode_ldVxMem : decode 0xF165 = .instr (.ldVxMem 1) := by decide -- X17

/-- X3, X5, X9, X11, X12, X13, X16, X18: one or more words of each UNKNOWN space of R72. -/
theorem test_decode_unknown :
    [0x00E1, 0x0123, 0x5121, 0x8AB8, 0x8ABF, 0x912F, 0xE19F, 0xF166].all
      (fun w : Word => decode w == .unknown w) = true := by decide

theorem test_decodeTableWord_drw : decodeTableWord 16 0xD12F = some (.drw 1 2 0xF) := by decide
theorem test_decodeTableWord_unknown : decodeTableWord 16 0x5121 = none := by decide

/-- R69: an encoding written out by its format, op x y n. -/
theorem test_encode_drw : encode (.drw 1 2 0xF) = 0xD12F := by decide

/-! ### Control flow (F rows) -/

/-- F2 -/
theorem test_ret_pops : answers (step (ready 0x00EE { s0 with sp := 1, stack := s0.stack.set 0 0x206 }))
    (fun t => t.sp == 0 && t.pc == 0x206 && t.stack[0] == 0x206 && !t.stackEvent) = true := by decide

/-- F1 -/
theorem test_ret_underflow : answers (step (ready 0x00EE s0))
    (fun t => t.sp == 0 && t.pc == 0x202 && t.stackEvent) = true := by decide

/-- F6 -/
theorem test_jp : answers (step (ready 0x1ABC s0)) (fun t => t.pc == 0xABC) = true := by decide

/-- F4 -/
theorem test_call_deepest : answers (step (ready 0x2345 { s0 with sp := 15 }))
    (fun t => t.sp == 16 && t.stack[15] == 0x202 && t.pc == 0x345 && !t.stackEvent) = true := by decide

/-- F5 -/
theorem test_call_overflow : answers (step (ready 0x2345 { s0 with sp := 16 }))
    (fun t => t.sp == 16 && t.stack == s0.stack && t.pc == 0x202 && t.stackEvent) = true := by decide

/-- F9 -/
theorem test_seByte_taken : answers (step (ready 0x3310 (regs [(3, 0x10)] s0))) (fun t => t.pc == 0x204) = true := by
  decide

/-- F10 -/
theorem test_seByte_not_taken : answers (step (ready 0x3311 (regs [(3, 0x10)] s0)))
    (fun t => t.pc == 0x202) = true := by decide

/-- F11 -/
theorem test_sneByte_not_taken : answers (step (ready 0x4310 (regs [(3, 0x10)] s0)))
    (fun t => t.pc == 0x202) = true := by decide

/-- F12 -/
theorem test_sneByte_taken : answers (step (ready 0x4311 (regs [(3, 0x10)] s0)))
    (fun t => t.pc == 0x204) = true := by decide

/-- F13 -/
theorem test_seReg_taken : answers (step (ready 0x5120 (regs [(1, 5), (2, 5)] s0)))
    (fun t => t.pc == 0x204) = true := by decide

/-- F14 -/
theorem test_seReg_not_taken : answers (step (ready 0x5120 (regs [(1, 5), (2, 6)] s0)))
    (fun t => t.pc == 0x202) = true := by decide

/-- F15 -/
theorem test_sneReg_taken : answers (step (ready 0x9120 (regs [(1, 5), (2, 6)] s0)))
    (fun t => t.pc == 0x204) = true := by decide

/-- F16 -/
theorem test_sneReg_not_taken : answers (step (ready 0x9120 (regs [(1, 5), (2, 5)] s0)))
    (fun t => t.pc == 0x202) = true := by decide

/-- F18: no reduction mod 4096. -/
theorem test_jpV0_exact : answers (step (ready 0xBFFF (regs [(0, 0xFF)] s0))) (fun t => t.pc == 0x10FE) = true := by
  decide

/-- S2 -/
theorem test_jpV0 : answers (step (ready 0xB111 (regs [(0, 1)] s0))) (fun t => t.pc == 0x112) = true := by decide

/-! ### Arithmetic (A rows) -/

/-- E1: the countdown comes before the instruction. -/
theorem test_ldByte : answers (step (ready 0x6005 { s0 with dt := 3, st := 1 }))
    (fun t => t.readV 0 == 5 && t.dt == 2 && t.st == 0 && t.pc == 0x202) = true := by decide

/-- A2: no flag. -/
theorem test_addByte_no_flag : answers (step (ready 0x71FF (regs [(1, 1), (15, 0x55)] s0)))
    (fun t => t.readV 1 == 0 && t.readV 15 == 0x55) = true := by decide

/-- A4 -/
theorem test_ldReg : answers (step (ready 0x8120 (regs [(1, 0x11), (2, 0x22)] s0)))
    (fun t => t.readV 1 == 0x22 && t.readV 2 == 0x22) = true := by decide

/-- A5 -/
theorem test_orReg : answers (step (ready 0x8121 (regs [(1, 0xF0), (2, 0x0F), (15, 0x55)] s0)))
    (fun t => t.readV 1 == 0xFF && t.readV 15 == 0x55) = true := by decide

/-- A6 -/
theorem test_andReg : answers (step (ready 0x8122 (regs [(1, 0xF0), (2, 0x0F)] s0)))
    (fun t => t.readV 1 == 0 && t.readV 2 == 0x0F) = true := by decide

/-- A7 -/
theorem test_xorReg : answers (step (ready 0x8123 (regs [(1, 0xFF), (2, 0x0F)] s0)))
    (fun t => t.readV 1 == 0xF0) = true := by decide

/-- A10 -/
theorem test_addReg_carry : answers (step (ready 0x8124 (regs [(1, 0xFF), (2, 0xFF)] s0)))
    (fun t => t.readV 1 == 0xFE && t.readV 15 == 1) = true := by decide

/-- A27: VF is the addend. -/
theorem test_addReg_vf_operand : answers (step (ready 0x81F4 (regs [(1, 0xFF), (15, 1)] s0)))
    (fun t => t.readV 1 == 0 && t.readV 15 == 1) = true := by decide

/-- A14: equal operands give flag 0. -/
theorem test_sub_equal : answers (step (ready 0x8125 (regs [(1, 7), (2, 7)] s0)))
    (fun t => t.readV 1 == 0 && t.readV 15 == 0) = true := by decide

/-- A29: V1 is 5 less the new VF. -/
theorem test_sub_vf_operand : answers (step (ready 0x81F5 (regs [(1, 5), (15, 3)] s0)))
    (fun t => t.readV 1 == 4 && t.readV 15 == 1) = true := by decide

/-- A16 with an odd value, by R125: V2 is not read, the low bit goes to VF. -/
theorem test_shr : answers (step (ready 0x8126 (regs [(1, 0x81), (2, 0xFF)] s0)))
    (fun t => t.readV 1 == 0x40 && t.readV 15 == 1) = true := by decide

/-- A30 -/
theorem test_shr_vf : answers (step (ready 0x8F06 (regs [(15, 3)] s0))) (fun t => t.readV 15 == 0) = true := by decide

/-- A18 -/
theorem test_subn : answers (step (ready 0x8127 (regs [(1, 5), (2, 3)] s0)))
    (fun t => t.readV 1 == 0xFE && t.readV 15 == 0) = true := by decide

/-- A33 -/
theorem test_subn_vf : answers (step (ready 0x8F17 (regs [(15, 3), (1, 5)] s0)))
    (fun t => t.readV 15 == 4 && t.readV 1 == 5) = true := by decide

/-- A20 -/
theorem test_shl : answers (step (ready 0x812E (regs [(1, 0x81)] s0)))
    (fun t => t.readV 1 == 2 && t.readV 15 == 1) = true := by decide

/-- A31 -/
theorem test_shl_vf : answers (step (ready 0x8F0E (regs [(15, 0x80)] s0))) (fun t => t.readV 15 == 2) = true := by
  decide

/-- A22 -/
theorem test_rnd : answers (step (readyIn 0xC10F 0 0xAB s0)) (fun t => t.readV 1 == 0x0B) = true := by decide

/-! ### The other values of the named parameters (the last column of A28-A34; D11; D32) -/

/-- A29 under FLAG_LAST. -/
theorem test_flagLast : (fun t : State => t.readV 1 == 2 && t.readV 15 == 1)
    ((regs [(1, 5), (15, 3)] s0).flagThenResult .flagLast 1 1 (fun t => t.readV 1 - t.readV 15)) = true := by decide

/-- D11: I_INCREMENT = X_PLUS_1. -/
theorem test_indexIncrement : ({ s0 with i := 0x300 }.indexAfter .xPlusOne 3).i = 0x304 := by decide

/-- D32: LSB_LEFT puts bit 0 at the left edge. -/
theorem test_lsbLeft : spriteBit .lsbLeft 0x01 0 = true ∧ spriteBit .msbLeft 0x80 0 = true := by decide

/-! ### Index and memory (M rows) -/

/-- M1 -/
theorem test_ldI : answers (step (ready 0xA123 s0)) (fun t => t.i == 0x123) = true := by decide

/-- M3 -/
theorem test_addIVx_wraps : answers (step (ready 0xF11E (regs [(1, 2)] { s0 with i := 0xFFFF })))
    (fun t => t.i == 1) = true := by decide

/-- M2 -/
theorem test_addIVx_past_memory : answers (step (ready 0xF11E (regs [(1, 1), (15, 0x55)] { s0 with i := 0xFFF })))
    (fun t => t.i == 0x1000 && t.readV 15 == 0x55 && !t.faulted) = true := by decide

/-- M6 -/
theorem test_ldFVx : answers (step (ready 0xF129 (regs [(1, 0xFF)] s0))) (fun t => t.i == 0x4FB) = true := by decide

/-- M11: the last three bytes of memory. -/
theorem test_ldBVx : answers (step (ready 0xF133 (regs [(1, 255)] { s0 with i := 0xFFD })))
    (fun t => t.readBytes 0xFFD 3 == [2, 5, 5] && t.pc == 0x202) = true := by decide

/-- M12: nothing is written. -/
theorem test_ldBVx_fault : answers (step (ready 0xF133 (regs [(1, 255)] { s0 with i := 0xFFE })))
    (fun t => t.fault == ⟨.dataOob, 0x200, 0xF133, 0x1000⟩ && t.readBytes 0xFFE 2 == [0, 0] && t.pc == 0x200)
    = true := by decide

/-- M13 -/
theorem test_ldMemVx : answers (step (ready 0xF355 (regs [(0, 1), (1, 2), (2, 3), (3, 4), (4, 9)] { s0 with i := 0x300 })))
    (fun t => t.readBytes 0x300 5 == [1, 2, 3, 4, 0] && t.i == 0x300) = true := by decide

/-- M15 -/
theorem test_ldMemVx_fault : answers (step (ready 0xF155 (regs [(0, 7)] { s0 with i := 0xFFF })))
    (fun t => t.fault == ⟨.dataOob, 0x200, 0xF155, 0x1000⟩ && t.readMem 0xFFF == 0) = true := by decide

/-- M16 for x = 3, by R145: the registers above x keep their values. -/
theorem test_ldVxMem : answers (step (ready 0xF365 (bytes 0x300 [4, 5, 6, 7, 8] (regs [(4, 0x77)] { s0 with i := 0x300 }))))
    (fun t => [t.readV 0, t.readV 1, t.readV 2, t.readV 3, t.readV 4] == [4, 5, 6, 7, 0x77] && t.i == 0x300)
    = true := by decide

/-- M19: the info is max(I, 0x1000). -/
theorem test_ldVxMem_fault : answers (step (ready 0xF065 { s0 with i := 0xFFFF }))
    (fun t => t.fault == ⟨.dataOob, 0x200, 0xF065, 0xFFFF⟩) = true := by decide

/-! ### Display (D rows) -/

/-- D1 -/
theorem test_cls : answers (step (ready 0x00E0 { s0 with fb := s0.fb.setPixel 5 7 true }))
    (fun t => !t.fb.pixel 5 7 && t.draw && t.pc == 0x202) = true := by decide

/-- D2: a sprite that wraps at both edges. -/
theorem test_drw_wraps :
    answers (step (ready 0xD122 (bytes 0x210 [0xC0, 0x80] (regs [(1, 63), (2, 31)] { s0 with i := 0x210 }))))
    (fun t => t.fb.pixel 31 63 && t.fb.pixel 31 0 && t.fb.pixel 0 63 && !t.fb.pixel 0 0 && t.readV 15 == 0 && t.draw)
    = true := by decide

/-- D10 over a lit pixel (D5): the column is VF before the flag is written, and one collision sets the flag. -/
theorem test_drw_collision :
    answers (step (ready 0xDF11 (bytes 0x300 [0xC0] (regs [(15, 5)] { s0 with i := 0x300, fb := s0.fb.setPixel 0 5 true }))))
    (fun t => !t.fb.pixel 0 5 && t.fb.pixel 0 6 && t.readV 15 == 1) = true := by decide

/-! ### Keys and timers (K rows) -/

/-- K1 -/
theorem test_skp : answers (step (readyIn 0xE19E 0x0008 0 (regs [(1, 3)] s0))) (fun t => t.pc == 0x204) = true := by
  decide

/-- K5 -/
theorem test_skp_fault : answers (step (ready 0xE19E (regs [(1, 0x10)] s0)))
    (fun t => t.fault == ⟨.keyIndex, 0x200, 0xE19E, 0x10⟩ && t.pc == 0x200) = true := by decide

/-- K4 -/
theorem test_sknp : answers (step (ready 0xE1A1 (regs [(1, 3)] s0))) (fun t => t.pc == 0x204) = true := by decide

/-- K6 -/
theorem test_sknp_fault : answers (step (ready 0xE1A1 (regs [(1, 0xFF)] s0)))
    (fun t => t.fault == ⟨.keyIndex, 0x200, 0xE1A1, 0xFF⟩) = true := by decide

/-- K7 -/
theorem test_ldVxDT : answers (step (ready 0xF107 { s0 with dt := 5 }))
    (fun t => t.dt == 4 && t.readV 1 == 4) = true := by decide

/-- K11: the key that is down in the arming step is not seen. -/
theorem test_ldVxK : answers (step (readyIn 0xF30A 0x0020 0 (regs [(3, 0x77)] s0)))
    (fun t => t.waiting && t.waitReg == 3 && t.pc == 0x202 && t.readV 3 == 0x77) = true := by decide

/-- K9 from a running timer, by R164. -/
theorem test_ldDTVx : answers (step (ready 0xF115 (regs [(1, 0x3C)] { s0 with dt := 9, st := 1 })))
    (fun t => t.dt == 0x3C && t.st == 0) = true := by decide

/-- K10 -/
theorem test_ldSTVx : answers (step (ready 0xF118 (regs [(1, 2)] { s0 with dt := 9 })))
    (fun t => t.st == 2 && t.dt == 8) = true := by decide

/-! ### The step (E rows) -/

/-- E2 -/
theorem test_unknown_is_noop : answers (step (ready 0x0000 { s0 with dt := 3 }))
    (fun t => t.pc == 0x202 && t.dt == 2 && !t.faulted) = true := by decide

/-- E3: the last valid fetch. -/
theorem test_last_fetch : answers (step (ready 0x60AB { s0 with pc := 0xFFE }))
    (fun t => t.readV 0 == 0xAB && t.pc == 0x1000 && !t.faulted) = true := by decide

/-- E5: the countdown of a faulting step is kept. -/
theorem test_fetch_fault : answers (step { s0 with pc := 0xFFF, dt := 5 })
    (fun t => t.fault == ⟨.fetchOob, 0xFFF, 0, 0xFFF⟩ && t.dt == 4 && t.pc == 0xFFF) = true := by decide

/-- E6 -/
theorem test_faulted_step : answers (step { s0 with fault := ⟨.fetchOob, 0xFFF, 0, 0xFFF⟩, dt := 5, draw := true })
    (fun t => t.dt == 5 && !t.draw && t.pc == 0x200) = true := by decide

/-- E7 -/
theorem test_draw_cleared : answers (step (ready 0x6000 { s0 with draw := true }))
    (fun t => !t.draw && t.pc == 0x202) = true := by decide

/-- E8 -/
theorem test_gate_no_key :
    answers (step ({ s0 with waiting := true, waitReg := 3, dt := 4, pc := 0x206 }.withInputs [⟨0, 0⟩]))
    (fun t => t.waiting && t.dt == 4 && t.pc == 0x206) = true := by decide

/-- E9: keys 9 and 2 are down, 2 is the lowest. -/
theorem test_gate_lowest_key :
    answers (step ({ s0 with waiting := true, waitReg := 3, dt := 4, pc := 0x206 }.withInputs [⟨0x0204, 0⟩]))
    (fun t => t.readV 3 == 2 && !t.waiting && t.dt == 4 && t.pc == 0x206) = true := by decide

/-- E10: key 0. -/
theorem test_gate_key_zero :
    answers (step ({ regs [(3, 9)] s0 with waiting := true, waitReg := 3 }.withInputs [⟨1, 0⟩]))
    (fun t => t.readV 3 == 0 && !t.waiting) = true := by decide

/-! ### Reset and load (L rows) -/

/-- L1: glyphs 0 and F of the font and the first byte after it. -/
theorem test_reset_font :
    s0.readBytes 0 5 = [0xF0, 0x90, 0x90, 0x90, 0xF0] ∧ s0.readBytes 0x4B 6 = [0xF0, 0x80, 0xF0, 0x80, 0x80, 0] := by
  decide

theorem test_reset_memory_canonical : s0.mem.wf = true := by decide

/-- L4: a reset clears the fault status. -/
theorem test_reset_of_faulted :
    { s0 with fault := ⟨.dataOob, 0x200, 0xF155, 0x1000⟩, dt := 5 }.hostReset = s0 := by rfl

/-- S1's image: the word lies at 0x200, high byte first. -/
theorem test_load : (State.boot [0x61, 0x42]).fetchWord = 0x6142 ∧ (State.boot [0x61, 0x42]).pc = 0x200 := by decide

/-- Writing back what reset left there leaves equal data. -/
theorem test_write_back_is_equal_memory : ((s0.writeMem 0x300 7).writeMem 0x300 0).mem = s0.mem := by decide

/-- The outputs after reset: fault_code is 0. -/
theorem test_outputs : s0.outputs.faultCode = 0 ∧ s0.outputs.stackEvent = false := by decide

/-! ### Witnesses: for every statement with hypotheses, a concrete state and operands that meet them all; for a
statement of several clauses, each clause at a boundary of its range -/

/-- The word lies at PC and the core executes it. -/
theorem executes_of {s : State} {i : Instr} (hf : s.fault.code = .none) (hw : s.waiting = false)
    (hp : s.pc.toNat ≤ 0xFFE)
    (hd : decode (wordOfBytes (s.readMem s.pc.toNat) (s.readMem (s.pc.toNat + 1))) = .instr i) : s.executes i :=
  ⟨⟨hf, hw⟩, hp, hd⟩

/-- DecodeInvertsEncode: an UNKNOWN outcome that is well-formed, and every instruction is. -/
theorem witness_DecodeInvertsEncode :
    (Decoded.unknown 0x0000).wf = true ∧ (Decoded.unknown 0xFFFF).wf = true ∧ (Decoded.instr (.drw 15 15 15)).wf = true := by
  decide

/-- StepBeginsWithInputDrawAndTimers: both clauses on the queue. -/
theorem witness_StepBeginsWithInputDrawAndTimers :
    (s0.withInputs [⟨1, 2⟩]).supplied = ⟨1, 2⟩ :: [] ∧ s0.supplied = [] := ⟨rfl, rfl⟩

/-- StepRunsTheDecodedInstruction, at the last address a word can lie at, PC even and PC odd. -/
theorem witness_StepRunsTheDecodedInstruction :
    (ready 0x60AB { s0 with pc := 0xFFE }).executes (.ldByte 0 0xAB) ∧
    (ready 0x60AB { s0 with pc := 0xFFD }).executes (.ldByte 0 0xAB) :=
  ⟨executes_of rfl rfl (by decide) (by decide), executes_of rfl rfl (by decide) (by decide)⟩

theorem witness_UnknownWordOnlyAdvancesPc :
    s0.running ∧ s0.pc.toNat ≤ 0xFFE ∧
    inUnknownSpace (wordOfBytes (s0.readMem s0.pc.toNat) (s0.readMem (s0.pc.toNat + 1))) = true :=
  ⟨⟨rfl, rfl⟩, by decide, by decide⟩

theorem witness_FaultedCoreDoesNothing : { s0 with fault := ⟨.keyIndex, 0x200, 0xE19E, 16⟩ }.fault.code ≠ .none := by
  decide

/-- GatePollTakesLowestKey: no key; key 0; key 15 alone. -/
theorem witness_GatePollTakesLowestKey :
    { s0 with waiting := true }.fault.code = .none ∧ { s0 with waiting := true }.waiting = true ∧
    ({ s0 with waiting := true }.withInputs [⟨0, 0⟩]).beginStep.input.keys = 0 ∧
    ({ s0 with waiting := true }.withInputs [⟨1, 0⟩]).beginStep.input.keys.getLsbD (0 : Fin 16).val = true ∧
    ({ s0 with waiting := true }.withInputs [⟨0x8000, 0⟩]).beginStep.input.keys.getLsbD (15 : Fin 16).val = true ∧
    ∀ j : Fin 16, j < 15 →
      ({ s0 with waiting := true }.withInputs [⟨0x8000, 0⟩]).beginStep.input.keys.getLsbD j.val = false := by
  decide

theorem witness_WaitingCoreIsFrozenWithoutKeys :
    let s := { s0 with waiting := true }.withInputs [⟨0, 1⟩, ⟨0, 2⟩, ⟨9, 3⟩]
    s.fault.code = .none ∧ s.waiting = true ∧ s.supplied = [⟨0, 1⟩, ⟨0, 2⟩] ++ [⟨9, 3⟩] ∧
    [StepInput.mk 0 1, ⟨0, 2⟩].length = 2 ∧ ∀ i ∈ [StepInput.mk 0 1, ⟨0, 2⟩], i.keys = 0 := by
  decide

/-- A core on an UNKNOWN word executes no instruction. -/
theorem not_executes_of {s : State} {w : Word} {i : Instr}
    (hd : decode (wordOfBytes (s.readMem s.pc.toNat) (s.readMem (s.pc.toNat + 1))) = .unknown w) : ¬ s.executes i :=
  fun h => Decoded.noConfusion (hd.symm.trans h.2.2)

/-- TimersCountExecutedSteps: a core that is not running; a running one that sets neither timer; one that sets DT; one
that sets ST; each takes a step. -/
theorem witness_TimersCountExecutedSteps :
    (let s := { s0 with waiting := true }.withInputs [⟨0, 0⟩]
     (∃ t, step s = .next t) ∧ ¬ s.running) ∧
    ((∃ t, step s0 = .next t) ∧ s0.running ∧ (∀ x, ¬ s0.executes (.ldDTVx x)) ∧ ∀ x, ¬ s0.executes (.ldSTVx x)) ∧
    ((∃ t, step (ready 0xF115 s0) = .next t) ∧ (ready 0xF115 s0).executes (.ldDTVx 1)) ∧
    ((∃ t, step (ready 0xF118 s0) = .next t) ∧ (ready 0xF118 s0).executes (.ldSTVx 1)) := by
  have hu : decode (wordOfBytes (s0.readMem s0.pc.toNat) (s0.readMem (s0.pc.toNat + 1))) = .unknown 0 := by decide
  exact ⟨⟨⟨_, rfl⟩, fun h => Bool.noConfusion h.2⟩,
    ⟨⟨_, rfl⟩, ⟨rfl, rfl⟩, fun _ => not_executes_of hu, fun _ => not_executes_of hu⟩,
    ⟨⟨_, rfl⟩, executes_of rfl rfl (by decide) (by decide)⟩, ⟨_, rfl⟩, executes_of rfl rfl (by decide) (by decide)⟩

/-- Two steps of UNKNOWN words with a tone under way. -/
def toneRun : Nat → State
  | 0 => { s0 with st := 3, supplied := [⟨0, 0⟩, ⟨0, 0⟩] }
  | 1 => { s0 with st := 2, pc := 0x202, supplied := [⟨0, 0⟩] }
  | _ => { s0 with st := 1, pc := 0x204 }

theorem witness_ToneLastsItsCount : ∀ k, k < 2 →
    (toneRun k).running ∧ (∀ x, ¬ (toneRun k).executes (.ldSTVx x)) ∧ step (toneRun k) = .next (toneRun (k + 1)) := by
  intro k hk
  match k, hk with
  | 0, _ =>
    have hu : decode (wordOfBytes ((toneRun 0).readMem (toneRun 0).pc.toNat)
      ((toneRun 0).readMem ((toneRun 0).pc.toNat + 1))) = .unknown 0 := by decide
    exact ⟨⟨rfl, rfl⟩, fun _ => not_executes_of hu, rfl⟩
  | 1, _ =>
    have hu : decode (wordOfBytes ((toneRun 1).readMem (toneRun 1).pc.toNat)
      ((toneRun 1).readMem ((toneRun 1).pc.toNat + 1))) = .unknown 0 := by decide
    exact ⟨⟨rfl, rfl⟩, fun _ => not_executes_of hu, rfl⟩

theorem witness_FetchBeyondMemoryFaults :
    { s0 with pc := 0xFFF }.running ∧ 0xFFF ≤ { s0 with pc := 0xFFF }.pc.toNat := ⟨⟨rfl, rfl⟩, by decide⟩

/-- FaultsExactlyOnTheirConditions: a running core at each of the three conditions, at the first value over the edge,
and one at none. -/
theorem witness_FaultsExactlyOnTheirConditions :
    s0.running ∧ { s0 with pc := 0xFFF }.running ∧
    (let s := ready 0xF155 { s0 with i := 0xFFF }
     s.executes (.ldMemVx 1) ∧ 0 < (Instr.ldMemVx 1).dataBytes ∧ 0xFFF < s.i.toNat + (Instr.ldMemVx 1).dataBytes - 1) ∧
    (let s := ready 0xE19E (regs [(1, 16)] s0)
     s.executes (.skp 1) ∧ 15 < (s.readV 1).toNat) :=
  ⟨⟨rfl, rfl⟩, ⟨rfl, rfl⟩, ⟨executes_of rfl rfl (by decide) (by decide), by decide, by decide⟩,
    executes_of rfl rfl (by decide) (by decide), by decide⟩

/-- DrawFlagTellsDisplayInstruction has no hypotheses; both of its cases occur, the second at the last byte of memory
and with no byte at all. -/
theorem witness_DrawFlagTellsDisplayInstruction :
    (ready 0x00E0 s0).executes .cls ∧
    (let s := ready 0xD011 { s0 with i := 0xFFF }
     s.executes (.drw 0 1 1) ∧ s.i.toNat + (1 : Nibble).toNat - 1 ≤ 0xFFF) ∧
    (ready 0xD010 { s0 with i := 0xFFFF }).executes (.drw 0 1 0) :=
  ⟨executes_of rfl rfl (by decide) (by decide), ⟨executes_of rfl rfl (by decide) (by decide), by decide⟩,
    executes_of rfl rfl (by decide) (by decide)⟩

/-- FaultAndStackEventAreSticky: a faulted state, a state with the event, and a step that raises it. -/
theorem witness_FaultAndStackEventAreSticky :
    (∃ t, step ({ s0 with fault := ⟨.fetchOob, 0xFFF, 0, 0xFFF⟩ }.withInputs [⟨0, 0⟩]) = .next t) ∧
    (∃ t, step ({ s0 with stackEvent := true }.withInputs [⟨0, 0⟩]) = .next t) ∧
    ∃ t, step (ready 0x00EE s0) = .next t ∧ (ready 0x00EE s0).stackEvent = false ∧ t.stackEvent = true :=
  ⟨⟨_, rfl⟩, ⟨_, rfl⟩, _, rfl, rfl, by decide⟩

/-- F8: the stop. -/
theorem witness_SelfJumpStaysStopped : (ready 0x1300 { s0 with pc := 0x300 }).stopped :=
  ⟨0x300, executes_of rfl rfl (by decide) (by decide), by decide⟩

/-- CallPushesReturnAddress: an empty stack, the last free entry, a full stack. -/
theorem witness_CallPushesReturnAddress :
    s0.sp.val < 16 ∧ { s0 with sp := 15 }.sp.val < 16 ∧ { s0 with sp := 16 }.sp.val = 16 := by decide

/-- ReturnPopsAddress: one entry, a full stack, an empty stack. -/
theorem witness_ReturnPopsAddress :
    0 < { s0 with sp := 1 }.sp.val ∧ 0 < { s0 with sp := 16 }.sp.val ∧ s0.sp.val = 0 := by decide

theorem witness_ReturnComesBackAfterTheCall :
    ∃ t : State, { s0 with sp := 15 }.sp.val < 16 ∧ exec (.call 0x345) { s0 with sp := 15 } = .next t ∧
      ∃ u : State, u.sp = t.sp ∧ u.stack = t.stack :=
  ⟨_, by decide, rfl, _, rfl, rfl⟩

/-- SkipOnImmediate: equal and unequal. -/
theorem witness_SkipOnImmediate : s0.readV 0 = 0 ∧ s0.readV 0 ≠ 0xFF := by decide

/-- SkipOnRegisters: an UNKNOWN word of each family; registers equal (one and the same among them) and unequal. -/
theorem witness_SkipOnRegisters :
    ((0x5121 : Word).toNat / 4096 = 5 ∧ (0x5121 : Word).toNat % 16 ≠ 0) ∧
    ((0x912F : Word).toNat / 4096 = 9 ∧ (0x912F : Word).toNat % 16 ≠ 0) ∧
    s0.readV 1 = s0.readV 1 ∧ (regs [(1, 5)] s0).readV 1 ≠ (regs [(1, 5)] s0).readV 2 := by decide

/-- AddWritesSumThenCarry: the sums 255 and 256, and a destination other than VF. -/
theorem witness_AddWritesSumThenCarry :
    (1 : Reg) ≠ Reg.vf ∧
    (let s := regs [(1, 0xFF), (2, 0)] s0; (s.readV 1).toNat + (s.readV 2).toNat ≤ 255) ∧
    (let s := regs [(1, 0xFF), (2, 1)] s0; 255 < (s.readV 1).toNat + (s.readV 2).toNat) := by decide

/-- SubWritesFlagThenDifference: f = 1 one above, f = 0 where equal; each clause on x and y. -/
theorem witness_SubWritesFlagThenDifference :
    (let s := regs [(1, 8), (2, 7)] s0
     ((s.readV 2).toNat < (s.readV 1).toNat → 1 = 1) ∧ ((s.readV 1).toNat ≤ (s.readV 2).toNat → 1 = 0)) ∧
    (let s := regs [(1, 7), (2, 7)] s0
     ((s.readV 2).toNat < (s.readV 1).toNat → 0 = 1) ∧ ((s.readV 1).toNat ≤ (s.readV 2).toNat → 0 = 0)) ∧
    (let s := regs [(1, 5), (15, 3)] s0
     ((s.readV Reg.vf).toNat < (s.readV 1).toNat → 1 = 1) ∧ ((s.readV 1).toNat ≤ (s.readV Reg.vf).toNat → 1 = 0)) ∧
    (let s := regs [(1, 3), (15, 5)] s0
     ((s.readV 1).toNat < (s.readV Reg.vf).toNat → 1 = 1) ∧ ((s.readV Reg.vf).toNat ≤ (s.readV 1).toNat → 1 = 0)) ∧
    (let s := regs [(15, 5)] s0
     ((s.readV Reg.vf).toNat < (s.readV Reg.vf).toNat → 0 = 1) ∧ ((s.readV Reg.vf).toNat ≤ (s.readV Reg.vf).toNat → 0 = 0)) ∧
    (1 : Reg) ≠ Reg.vf := by decide

/-- SubnWritesFlagThenDifference: the same boundaries, the other way round. -/
theorem witness_SubnWritesFlagThenDifference :
    (let s := regs [(1, 7), (2, 8)] s0
     ((s.readV 1).toNat < (s.readV 2).toNat → 1 = 1) ∧ ((s.readV 2).toNat ≤ (s.readV 1).toNat → 1 = 0)) ∧
    (let s := regs [(1, 7), (2, 7)] s0
     ((s.readV 1).toNat < (s.readV 2).toNat → 0 = 1) ∧ ((s.readV 2).toNat ≤ (s.readV 1).toNat → 0 = 0)) ∧
    (let s := regs [(1, 3), (15, 5)] s0
     ((s.readV 1).toNat < (s.readV Reg.vf).toNat → 1 = 1) ∧ ((s.readV Reg.vf).toNat ≤ (s.readV 1).toNat → 1 = 0)) ∧
    (let s := regs [(1, 5), (15, 3)] s0
     ((s.readV Reg.vf).toNat < (s.readV 1).toNat → 1 = 1) ∧ ((s.readV 1).toNat ≤ (s.readV Reg.vf).toNat → 1 = 0)) ∧
    (let s := regs [(15, 5)] s0
     ((s.readV Reg.vf).toNat < (s.readV Reg.vf).toNat → 0 = 1) ∧ ((s.readV Reg.vf).toNat ≤ (s.readV Reg.vf).toNat → 0 = 0)) ∧
    (1 : Reg) ≠ Reg.vf := by decide

/-- ShiftsMoveOneBitIntoFlag: a destination below VF and VF itself. -/
theorem witness_ShiftsMoveOneBitIntoFlag : (14 : Reg) ≠ Reg.vf ∧ (15 : Reg) = Reg.vf := by decide

/-- StoreBcdWritesThreeDigits, at the last address. -/
theorem witness_StoreBcdWritesThreeDigits :
    { s0 with i := 0xFFD }.mem.wf = true ∧ { s0 with i := 0xFFD }.i.toNat + 2 ≤ 0xFFF := by decide

/-- StoreRegistersWritesRange and StoreThenLoadRestoresRegisters, with V0 alone and with all sixteen registers at the
last address. -/
theorem witness_StoreRegistersWritesRange :
    { s0 with i := 0xFFF }.mem.wf = true ∧ { s0 with i := 0xFFF }.i.toNat + (0 : Reg).val ≤ 0xFFF ∧
    { s0 with i := 0xFF0 }.i.toNat + (15 : Reg).val ≤ 0xFFF ∧ (0 : Reg) ≤ 0 ∧ (15 : Reg) ≤ 15 := by decide

/-- LoadRegistersReadsRange, the same; and a register above x. -/
theorem witness_LoadRegistersReadsRange :
    { s0 with i := 0xFFF }.i.toNat + (0 : Reg).val ≤ 0xFFF ∧ { s0 with i := 0xFF0 }.i.toNat + (15 : Reg).val ≤ 0xFFF ∧
    (0 : Reg) < 1 := by decide

/-- StoreThenLoadRestoresRegisters: the state after the store is itself such a u. -/
theorem witness_StoreThenLoadRestoresRegisters :
    { s0 with i := 0xFF0 }.mem.wf = true ∧ { s0 with i := 0xFF0 }.i.toNat + (15 : Reg).val ≤ 0xFFF ∧
    ∃ t, exec (.ldMemVx 15) { s0 with i := 0xFF0 } = .next t ∧ ∃ u : State, u.i = t.i ∧
      ∀ k : Reg, k ≤ 15 → u.readMem (0xFF0 + k.val) = t.readMem (0xFF0 + k.val) :=
  ⟨by decide, by decide, _, rfl, _, rfl, fun _ _ => rfl⟩

/-- NextFetchSeesStoredCode: F155 at 0x200 with I = 0x202 stores V0, V1 = 61 42 over the next word. -/
theorem witness_NextFetchSeesStoredCode :
    let s := ready 0xF155 (regs [(0, 0x61), (1, 0x42)] { s0 with i := 0x202 })
    s.mem.wf = true ∧ s.i.toNat + (1 : Reg).val ≤ 0xFFF ∧ s.executes (.ldMemVx 1) ∧ (0 : Reg).val + 1 ≤ (1 : Reg).val ∧
    s.i.toNat + (0 : Reg).val = s.pc.toNat + 2 ∧ decode (wordOfBytes (s.readV 0) (s.readV 1)) = .instr (.ldByte 1 0x42) :=
  ⟨by decide, by decide, executes_of rfl rfl (by decide) (by decide), by decide, by decide, by decide⟩

/-- DataBeyondMemoryFaults: each of the four instructions at the first I that is too high, and I = 0xFFFF. -/
theorem witness_DataBeyondMemoryFaults :
    [Instr.ldBVx 0, .ldMemVx 1, .ldVxMem 1, .drw 0 0 2].all (fun i => decide (0 < i.dataBytes)) = true ∧
    0xFFF < { s0 with i := 0xFFE }.i.toNat + (Instr.ldBVx 0).dataBytes - 1 ∧
    0xFFF < { s0 with i := 0xFFF }.i.toNat + (Instr.ldMemVx 1).dataBytes - 1 ∧
    0xFFF < { s0 with i := 0xFFF }.i.toNat + (Instr.ldVxMem 1).dataBytes - 1 ∧
    0xFFF < { s0 with i := 0xFFF }.i.toNat + (Instr.drw 0 0 2).dataBytes - 1 ∧
    0xFFF < { s0 with i := 0xFFFF }.i.toNat + (Instr.ldVxMem 0).dataBytes - 1 := by decide

/-- DrawXorsTheWrappedSprite: no byte with I out of memory (D7), and the last byte of memory (D9); a pixel that is
covered (glyph 0 of the font, V0 = V1 = 0) and one that is not; a sprite that turns no pixel off, and one that does. -/
theorem witness_DrawXorsTheWrappedSprite :
    (0 : Nibble).toNat = 0 ∧ { s0 with i := 0xFFF }.i.toNat + (1 : Nibble).toNat - 1 ≤ 0xFFF ∧
    s0.spriteCovers 0 1 5 0 0 ∧ ¬ s0.spriteCovers 0 1 0 0 0 ∧
    (∀ row col, (Screen.clear).pixel row col = true → False) ∧
    (∃ t, exec (.drw 0 1 5) { s0 with fb := s0.fb.setPixel 0 0 true } = .next t ∧
      ∃ row col, (s0.fb.setPixel 0 0 true).pixel row col = true ∧ t.fb.pixel row col = false) := by
  refine ⟨rfl, by decide, ⟨0, 0, by decide, by decide, by decide, by decide, by decide⟩,
    fun ⟨r, _, h, _⟩ => absurd h (Nat.not_lt_zero r), ?_, _, rfl, 0, 0, by decide, by decide⟩
  intro row col h
  simp [Screen.pixel, Screen.clear] at h

/-- DrawTwiceRestoresTheScreen and SecondDrawAlwaysCollides: a sprite with a 1 bit (glyph 0) from V0 and V1, neither of
them VF, over an unlit pixel; and a sprite with no 1 bit at all (0x200 after reset), every covered pixel lit. -/
theorem witness_DrawTwiceRestoresTheScreen :
    (0 : Reg) ≠ Reg.vf ∧ (1 : Reg) ≠ Reg.vf ∧ s0.i.toNat + (5 : Nibble).toNat - 1 ≤ 0xFFF ∧
    (s0.spriteCovers 0 1 5 0 0 ∧ s0.fb.pixel 0 0 = false) ∧
    ∀ row col, s0.spriteCovers 0 1 0 row col → s0.fb.pixel row col = true :=
  ⟨by decide, by decide, by decide, ⟨⟨0, 0, by decide, by decide, by decide, by decide, by decide⟩, by decide⟩,
    fun _ _ ⟨r, _, h, _⟩ => absurd h (Nat.not_lt_zero r)⟩

/-- The screen with every pixel lit. -/
def litScreen : Screen := Vector.replicate 32 (Vector.replicate 64 true)

/-- DrawTwiceRestoresTheScreen, the VF = 0 clause with a covered pixel: glyph 0 over a lit screen, so that each of its 1
bits meets a lit pixel. -/
theorem witness_DrawTwiceRestoresTheScreen_lit :
    let s := { s0 with fb := litScreen }
    (0 : Reg) ≠ Reg.vf ∧ (1 : Reg) ≠ Reg.vf ∧ s.i.toNat + (5 : Nibble).toNat - 1 ≤ 0xFFF ∧
    (s.spriteCovers 0 1 5 0 0 ∧ s.fb.pixel 0 0 = true) ∧
    ∀ row col, s.spriteCovers 0 1 5 row col → s.fb.pixel row col = true :=
  ⟨by decide, by decide, by decide, ⟨⟨0, 0, by decide, by decide, by decide, by decide, by decide⟩, by decide⟩,
    fun row col _ => by simp [Screen.pixel, litScreen]⟩

theorem witness_SecondDrawAlwaysCollides :
    (0 : Reg) ≠ Reg.vf ∧ (1 : Reg) ≠ Reg.vf ∧ 0 < (5 : Nibble).toNat ∧ s0.i.toNat + (5 : Nibble).toNat - 1 ≤ 0xFFF ∧
    ∃ r, r < (5 : Nibble).toNat ∧ s0.readMem (s0.i.toNat + r) ≠ 0 :=
  ⟨by decide, by decide, by decide, by decide, 0, by decide, by decide⟩

/-- SkipOnKeyLevel: the indices 15 and 16; a key down and a key up. -/
theorem witness_SkipOnKeyLevel :
    ((regs [(1, 15)] s0).readV 1).toNat ≤ 15 ∧ 15 < ((regs [(1, 16)] s0).readV 1).toNat ∧
    { regs [(1, 15)] s0 with input := ⟨0x8000, 0⟩ }.input.keys.getLsbD ((regs [(1, 15)] s0).readV 1).toNat = true ∧
    s0.input.keys.getLsbD ((regs [(1, 15)] s0).readV 1).toNat = false := by decide

theorem witness_SetTimersFromRegister :
    (ready 0xF115 s0).executes (.ldDTVx 1) ∧ (ready 0xF118 s0).executes (.ldSTVx 1) :=
  ⟨executes_of rfl rfl (by decide) (by decide), executes_of rfl rfl (by decide) (by decide)⟩

theorem witness_ReadDelayTimerAfterCountdown : (ready 0xFF07 s0).executes (.ldVxDT 15) :=
  executes_of rfl rfl (by decide) (by decide)

theorem witness_WaitForKeyArmsTheGate : (ready 0xFF0A s0).executes (.ldVxK 15) :=
  executes_of rfl rfl (by decide) (by decide)

/-- RegistersChangeOnlyAsDestinations: a destination changes, and VF as a flag. -/
theorem witness_RegistersChangeOnlyAsDestinations :
    (∃ t, exec (.ldByte 3 7) s0 = .next t ∧ t.readV 3 ≠ s0.readV 3) ∧
    ∃ t, exec (.addReg 1 1) (regs [(1, 0x80)] s0) = .next t ∧
      t.readV Reg.vf ≠ (regs [(1, 0x80)] s0).readV Reg.vf :=
  ⟨⟨_, rfl, by decide⟩, _, rfl, by decide⟩

/-- StateChangesOnlyByItsWriters: each kind of state changes somewhere. -/
theorem witness_StateChangesOnlyByItsWriters :
    (∃ t, exec (.ldI 5) s0 = .next t ∧ t.i ≠ s0.i) ∧ (∃ t, exec .ret s0 = .next t ∧ ¬ SameStack s0 t) ∧
    (∃ t, exec (.ldDTVx 1) (regs [(1, 5)] s0) = .next t ∧ t.dt ≠ s0.dt) ∧
    (∃ t, exec (.ldSTVx 1) (regs [(1, 5)] s0) = .next t ∧ t.st ≠ s0.st) ∧
    (∃ t, exec (.ldMemVx 0) s0 = .next t ∧ ¬ SameMemory s0 t) ∧ (∃ t, exec .cls s0 = .next t ∧ ¬ SameScreen s0 t) ∧
    (∃ t, exec (.ldVxK 3) s0 = .next t ∧ ¬ SameGate s0 t) ∧
    (∃ t, exec (.skp 1) (regs [(1, 16)] s0) = .next t ∧ ¬ SameFault (regs [(1, 16)] s0) t) :=
  ⟨⟨_, rfl, by decide⟩, ⟨_, rfl, fun h => absurd h.2.2 (by decide)⟩, ⟨_, rfl, by decide⟩, ⟨_, rfl, by decide⟩,
    ⟨_, rfl, fun h => absurd (h 0) (by decide)⟩, ⟨_, rfl, fun h => absurd h.2 (by decide)⟩,
    ⟨_, rfl, fun h => absurd h.1 (by decide)⟩, ⟨_, rfl, fun h => absurd (congrArg FaultStatus.code h) (by decide)⟩⟩

theorem witness_InputsReadOnlyWhereSaid :
    (∃ t, exec (.ldByte 3 7) s0 = .next t) ∧ (Instr.ldByte 3 7).testsKey = false ∧
    ∀ x kk, Instr.ldByte 3 7 ≠ .rnd x kk :=
  ⟨⟨_, rfl⟩, rfl, fun _ _ h => by cases h⟩

/-- LoadCopiesImageAndTruncates: the last byte of memory is byte 3583 of an image; an address of each clause on the
bytes that stay. -/
theorem witness_LoadCopiesImageAndTruncates :
    (3583 < (List.replicate 3584 (0xAA : Byte)).length ∧ 0x200 + 3583 ≤ 0xFFF) ∧ 0x1FF < 0x200 ∧
    0x200 + [(0xAA : Byte)].length ≤ 0x201 ∧ 0xFFF < 0x1000 :=
  ⟨⟨by rw [List.length_replicate]; decide, by decide⟩, by decide, by decide, by decide⟩

/-- EveryStepKeepsInvariant: a state with the invariant and a step of it that faults. -/
theorem witness_EveryStepKeepsInvariant :
    ∃ s t : State, s.Inv ∧ step s = .next t ∧ t.fault.code = .keyIndex := by
  refine ⟨ready 0xE19E (regs [(1, 16)] s0), _, ⟨by decide, by decide, by decide, ⟨rfl, rfl, rfl⟩, ?_⟩, rfl, by decide⟩
  intro h
  exact absurd rfl h

end Sys2Proof.Tests
end

section
/-! The state after reset (spec/10_state.md R43): what its registers, memory and framebuffer read as, and from these the
obligation on every element of it. -/

namespace Sys2Proof.Machine

/-! ### Memory as reset leaves it (R46) -/

/-- FONT is 16 glyphs of five bytes (R192). -/
theorem length_font : Config.font.length = 80 := rfl

/-- An address of the font holds that byte of the font. -/
theorem initialByte_of_lt_font {a : Nat} (h : a < Config.font.length) : initialByte a = Config.font[a] := by
  rw [initialByte, List.getD_eq_getElem _ _ h]

/-- An address above the font holds 0. -/
theorem initialByte_of_font_le {a : Nat} (h : Config.font.length ≤ a) : initialByte a = 0 := by
  rw [initialByte, List.getD_eq_default _ _ h]

/-! ### What the reset state reads as -/

@[simp] theorem State.readMem_reset (a : Nat) : State.reset.readMem a = initialByte a := rfl

@[simp] theorem State.readV_reset (r : Reg) : State.reset.readV r = 0 :=
  Vector.getElem_replicate r.isLt

@[simp] theorem State.stack_reset (k : Fin 16) : State.reset.stack[k] = 0 :=
  Vector.getElem_replicate k.isLt

@[simp] theorem State.fb_reset : State.reset.fb = Screen.clear := rfl

/-- Settles O53: registers, stack and framebuffer are filled with one value, memory reads as FONT and 0 above it, and
each remaining element is a field of the reset state. -/
theorem resetStateIsConstructed : Obligations.ResetStateIsConstructed := by
  have font_bytes (a : Nat) (h : a < Config.font.length) : State.reset.readMem a = Config.font[a] :=
    initialByte_of_lt_font h
  have zero_bytes (a : Nat) (h : 80 ≤ a) (_ : a < 4096) : State.reset.readMem a = 0 :=
    initialByte_of_font_le (length_font ▸ h)
  have pixels_off (row : Fin 32) (col : Fin 64) : State.reset.fb.pixel row col = false :=
    Screen.pixel_clear row col
  exact ⟨State.readV_reset, rfl, rfl, rfl, State.stack_reset, rfl, rfl, length_font, font_bytes, zero_bytes, pixels_off,
    rfl, rfl, rfl, rfl, rfl, rfl⟩

end Sys2Proof.Machine
end

section
/-! Decoder and encoder against each other and against the opcode map (spec/30_encoding.md R69-R71): a word is put
together from its fields, a mask pins the fields of its literal digits, and the decoder and the encoder are inverse on
the words of the 34 instructions. From these the obligation on the rows of the opcode map. -/

namespace Sys2Proof

/-! ### A word from its fields -/

/-- A word with these fields is that word of format ADDR. -/
theorem encAddr_of_fields {w : Word} {op : Nibble} (hop : opField w = op) : encAddr op (nnnField w) = w := by
  subst hop
  apply BitVec.eq_of_toNat_eq
  rw [encAddr_toNat, opField_toNat, nnnField_toNat]
  omega

/-- A word with these fields is that word of format XKK or XS. -/
theorem encXkk_of_fields {w : Word} {op : Nibble} {kk : Byte} (hop : opField w = op) (hkk : kkField w = kk) :
    encXkk op (xField w) kk = w := by
  subst hop hkk
  apply BitVec.eq_of_toNat_eq
  rw [encXkk_toNat, opField_toNat, xField_val, kkField_toNat]
  omega

/-- A word with these fields is that word of format XYS or XYN. -/
theorem encXyn_of_fields {w : Word} {op n : Nibble} (hop : opField w = op) (hn : nField w = n) :
    encXyn op (xField w) (yField w) n = w := by
  subst hop hn
  apply BitVec.eq_of_toNat_eq
  rw [encXyn_toNat, opField_toNat, xField_val, yField_val, nField_toNat]
  omega

/-! ### What a mask pins -/

theorem opField_of_and_F000 {w : Word} {op : Nibble} (h : w &&& 0xF000 = encAddr op 0) : opField w = op := by
  have kept : w &&& 0xF000 = encAddr (opField w) 0 := by
    simpa only [encAddr_of_fields rfl] using encAddr_and_F000 (opField w) (nnnField w)
  simpa using congrArg opField (kept.symm.trans h)

theorem fields_of_and_F0FF {w : Word} {op : Nibble} {kk : Byte} (h : w &&& 0xF0FF = encXkk op 0 kk) :
    opField w = op ∧ kkField w = kk := by
  have kept : w &&& 0xF0FF = encXkk (opField w) 0 (kkField w) := by
    simpa only [encXkk_of_fields rfl rfl] using encXkk_and_F0FF (opField w) (xField w) (kkField w)
  have same := kept.symm.trans h
  exact ⟨by simpa using congrArg opField same, by simpa using congrArg kkField same⟩

theorem fields_of_and_F00F {w : Word} {op n : Nibble} (h : w &&& 0xF00F = encXyn op 0 0 n) :
    opField w = op ∧ nField w = n := by
  have kept : w &&& 0xF00F = encXyn (opField w) 0 0 (nField w) := by
    simpa only [encXyn_of_fields rfl rfl] using encXyn_and_F00F (opField w) (xField w) (yField w) (nField w)
  have same := kept.symm.trans h
  exact ⟨by simpa using congrArg opField same, by simpa using congrArg nField same⟩

/-- A word that fits a row of format XS is that row's word of its own x. -/
theorem encXkk_of_and_F0FF {w : Word} {op : Nibble} {kk : Byte} (h : w &&& 0xF0FF = encXkk op 0 kk) :
    encXkk op (xField w) kk = w :=
  encXkk_of_fields (fields_of_and_F0FF h).1 (fields_of_and_F0FF h).2

/-- A word that fits a row of format XYS is that row's word of its own x and y. -/
theorem encXyn_of_and_F00F {w : Word} {op n : Nibble} (h : w &&& 0xF00F = encXyn op 0 0 n) :
    encXyn op (xField w) (yField w) n = w :=
  encXyn_of_fields (fields_of_and_F00F h).1 (fields_of_and_F00F h).2

/-! ### Encoding what a word decodes to -/

theorem encodeDecoded_decode0 (w : Word) : encodeDecoded (decode0 w) = w := by
  unfold decode0
  split
  · next h => exact h.symm
  · split
    · next h => exact h.symm
    · rfl

theorem encodeDecoded_decode8 {w : Word} (hop : opField w = 8) : encodeDecoded (decode8 w) = w := by
  have enc {n : Nibble} (h : (nField w).toNat = n.toNat) : encXyn 8 (xField w) (yField w) n = w :=
    encXyn_of_fields hop (BitVec.eq_of_toNat_eq h)
  unfold decode8
  split
  case h_10 => rfl
  all_goals exact enc ‹_›

theorem encodeDecoded_decodeE {w : Word} (hop : opField w = 0xE) : encodeDecoded (decodeE w) = w := by
  have enc {kk : Byte} (h : (kkField w).toNat = kk.toNat) : encXkk 0xE (xField w) kk = w :=
    encXkk_of_fields hop (BitVec.eq_of_toNat_eq h)
  unfold decodeE
  split
  case h_3 => rfl
  all_goals exact enc ‹_›

theorem encodeDecoded_decodeF {w : Word} (hop : opField w = 0xF) : encodeDecoded (decodeF w) = w := by
  have enc {kk : Byte} (h : (kkField w).toNat = kk.toNat) : encXkk 0xF (xField w) kk = w :=
    encXkk_of_fields hop (BitVec.eq_of_toNat_eq h)
  unfold decodeF
  split
  case h_10 => rfl
  all_goals exact enc ‹_›

/-- Every word is the word of what it decodes to (R77). -/
theorem encodeDecoded_decode (w : Word) : encodeDecoded (decode w) = w := by
  have op_eq {op : Nibble} (h : (opField w).toNat = op.toNat) : opField w = op := BitVec.eq_of_toNat_eq h
  unfold decode
  split
  next => exact encodeDecoded_decode0 w
  next h => exact encAddr_of_fields (op_eq h)
  next h => exact encAddr_of_fields (op_eq h)
  next h => exact encXkk_of_fields (op_eq h) rfl
  next h => exact encXkk_of_fields (op_eq h) rfl
  next h =>
    split
    · next hn => exact encXyn_of_fields (op_eq h) hn
    · rfl
  next h => exact encXkk_of_fields (op_eq h) rfl
  next h => exact encXkk_of_fields (op_eq h) rfl
  next h => exact encodeDecoded_decode8 (op_eq h)
  next h =>
    split
    · next hn => exact encXyn_of_fields (op_eq h) hn
    · rfl
  next h => exact encAddr_of_fields (op_eq h)
  next h => exact encAddr_of_fields (op_eq h)
  next h => exact encXkk_of_fields (op_eq h) rfl
  next h => exact encXyn_of_fields (op_eq h) rfl
  next h => exact encodeDecoded_decodeE (op_eq h)
  next h => exact encodeDecoded_decodeF (op_eq h)
  next => rfl

theorem encode_of_decode {w : Word} {i : Instr} (h : decode w = .instr i) : encode i = w := by
  have back := encodeDecoded_decode w
  rw [h] at back
  exact back

/-! ### Decoding an instruction's word -/

/-- A word of family 8 is dispatched on its low digit. -/
theorem decode_encXyn_8 (x y : Reg) (n : Nibble) : decode (encXyn 0x8#4 x y n) = decode8 (encXyn 0x8#4 x y n) := by
  simp [decode]

/-- A word of family E is dispatched on its low byte. -/
theorem decode_encXkk_E (x : Reg) (kk : Byte) : decode (encXkk 0xE#4 x kk) = decodeE (encXkk 0xE#4 x kk) := by
  simp [decode]

/-- A word of family F is dispatched on its low byte. -/
theorem decode_encXkk_F (x : Reg) (kk : Byte) : decode (encXkk 0xF#4 x kk) = decodeF (encXkk 0xF#4 x kk) := by
  simp [decode]

/-- The decoder inverts the encoder (R69, R70). -/
theorem decode_encode (i : Instr) : decode (encode i) = .instr i := by
  cases i with
  | cls | ret => decide
  | jp | call | ldI | jpV0 | seByte | sneByte | ldByte | addByte | rnd | seReg | sneReg | drw =>
    simp [encode, decode]
  | ldReg | orReg | andReg | xorReg | addReg | sub | shr | subn | shl =>
    simp [encode, decode_encXyn_8, decode8]
  | skp | sknp => simp [encode, decode_encXkk_E, decodeE]
  | ldVxDT | ldVxK | ldDTVx | ldSTVx | addIVx | ldFVx | ldBVx | ldMemVx | ldVxMem =>
    simp [encode, decode_encXkk_F, decodeF]

/-! ### The rows of the opcode map (R71) -/

/-- Every instruction's word fits its row. -/
theorem fitsRow : ∀ i : Instr, Laws.FitsRow.Statement i
  | .cls => Laws.FitsRow.cls
  | .ret => Laws.FitsRow.ret
  | .jp nnn => Laws.FitsRow.jp nnn
  | .call nnn => Laws.FitsRow.call nnn
  | .seByte x kk => Laws.FitsRow.seByte x kk
  | .sneByte x kk => Laws.FitsRow.sneByte x kk
  | .seReg x y => Laws.FitsRow.seReg x y
  | .sneReg x y => Laws.FitsRow.sneReg x y
  | .ldByte x kk => Laws.FitsRow.ldByte x kk
  | .addByte x kk => Laws.FitsRow.addByte x kk
  | .ldReg x y => Laws.FitsRow.ldReg x y
  | .orReg x y => Laws.FitsRow.orReg x y
  | .andReg x y => Laws.FitsRow.andReg x y
  | .xorReg x y => Laws.FitsRow.xorReg x y
  | .addReg x y => Laws.FitsRow.addReg x y
  | .sub x y => Laws.FitsRow.sub x y
  | .shr x y => Laws.FitsRow.shr x y
  | .subn x y => Laws.FitsRow.subn x y
  | .shl x y => Laws.FitsRow.shl x y
  | .ldI nnn => Laws.FitsRow.ldI nnn
  | .jpV0 nnn => Laws.FitsRow.jpV0 nnn
  | .rnd x kk => Laws.FitsRow.rnd x kk
  | .drw x y n => Laws.FitsRow.drw x y n
  | .skp x => Laws.FitsRow.skp x
  | .sknp x => Laws.FitsRow.sknp x
  | .ldVxDT x => Laws.FitsRow.ldVxDT x
  | .ldVxK x => Laws.FitsRow.ldVxK x
  | .ldDTVx x => Laws.FitsRow.ldDTVx x
  | .ldSTVx x => Laws.FitsRow.ldSTVx x
  | .addIVx x => Laws.FitsRow.addIVx x
  | .ldFVx x => Laws.FitsRow.ldFVx x
  | .ldBVx x => Laws.FitsRow.ldBVx x
  | .ldMemVx x => Laws.FitsRow.ldMemVx x
  | .ldVxMem x => Laws.FitsRow.ldVxMem x

/-- Every word that fits an instruction's row is the word of an instruction of that row: the same instruction with the
operands that stand in the word's own fields. -/
theorem exists_encode_of_fits {w : Word} : ∀ i : Instr, w &&& (rowOf i).mask = (rowOf i).bits →
    ∃ j, encode j = w ∧ rowOf j = rowOf i
  | .cls, h => ⟨.cls, h.symm.trans BitVec.and_allOnes, rfl⟩
  | .ret, h => ⟨.ret, h.symm.trans BitVec.and_allOnes, rfl⟩
  | .jp _, h => ⟨.jp (nnnField w), encAddr_of_fields (opField_of_and_F000 h), rfl⟩
  | .call _, h => ⟨.call (nnnField w), encAddr_of_fields (opField_of_and_F000 h), rfl⟩
  | .seByte _ _, h => ⟨.seByte (xField w) (kkField w), encXkk_of_fields (opField_of_and_F000 h) rfl, rfl⟩
  | .sneByte _ _, h => ⟨.sneByte (xField w) (kkField w), encXkk_of_fields (opField_of_and_F000 h) rfl, rfl⟩
  | .seReg _ _, h => ⟨.seReg (xField w) (yField w), encXyn_of_and_F00F h, rfl⟩
  | .sneReg _ _, h => ⟨.sneReg (xField w) (yField w), encXyn_of_and_F00F h, rfl⟩
  | .ldByte _ _, h => ⟨.ldByte (xField w) (kkField w), encXkk_of_fields (opField_of_and_F000 h) rfl, rfl⟩
  | .addByte _ _, h => ⟨.addByte (xField w) (kkField w), encXkk_of_fields (opField_of_and_F000 h) rfl, rfl⟩
  | .ldReg _ _, h => ⟨.ldReg (xField w) (yField w), encXyn_of_and_F00F h, rfl⟩
  | .orReg _ _, h => ⟨.orReg (xField w) (yField w), encXyn_of_and_F00F h, rfl⟩
  | .andReg _ _, h => ⟨.andReg (xField w) (yField w), encXyn_of_and_F00F h, rfl⟩
  | .xorReg _ _, h => ⟨.xorReg (xField w) (yField w), encXyn_of_and_F00F h, rfl⟩
  | .addReg _ _, h => ⟨.addReg (xField w) (yField w), encXyn_of_and_F00F h, rfl⟩
  | .sub _ _, h => ⟨.sub (xField w) (yField w), encXyn_of_and_F00F h, rfl⟩
  | .shr _ _, h => ⟨.shr (xField w) (yField w), encXyn_of_and_F00F h, rfl⟩
  | .subn _ _, h => ⟨.subn (xField w) (yField w), encXyn_of_and_F00F h, rfl⟩
  | .shl _ _, h => ⟨.shl (xField w) (yField w), encXyn_of_and_F00F h, rfl⟩
  | .ldI _, h => ⟨.ldI (nnnField w), encAddr_of_fields (opField_of_and_F000 h), rfl⟩
  | .jpV0 _, h => ⟨.jpV0 (nnnField w), encAddr_of_fields (opField_of_and_F000 h), rfl⟩
  | .rnd _ _, h => ⟨.rnd (xField w) (kkField w), encXkk_of_fields (opField_of_and_F000 h) rfl, rfl⟩
  | .drw _ _ _, h =>
    ⟨.drw (xField w) (yField w) (nField w), encXyn_of_fields (opField_of_and_F000 h) rfl, rfl⟩
  | .skp _, h => ⟨.skp (xField w), encXkk_of_and_F0FF h, rfl⟩
  | .sknp _, h => ⟨.sknp (xField w), encXkk_of_and_F0FF h, rfl⟩
  | .ldVxDT _, h => ⟨.ldVxDT (xField w), encXkk_of_and_F0FF h, rfl⟩
  | .ldVxK _, h => ⟨.ldVxK (xField w), encXkk_of_and_F0FF h, rfl⟩
  | .ldDTVx _, h => ⟨.ldDTVx (xField w), encXkk_of_and_F0FF h, rfl⟩
  | .ldSTVx _, h => ⟨.ldSTVx (xField w), encXkk_of_and_F0FF h, rfl⟩
  | .addIVx _, h => ⟨.addIVx (xField w), encXkk_of_and_F0FF h, rfl⟩
  | .ldFVx _, h => ⟨.ldFVx (xField w), encXkk_of_and_F0FF h, rfl⟩
  | .ldBVx _, h => ⟨.ldBVx (xField w), encXkk_of_and_F0FF h, rfl⟩
  | .ldMemVx _, h => ⟨.ldMemVx (xField w), encXkk_of_and_F0FF h, rfl⟩
  | .ldVxMem _, h => ⟨.ldVxMem (xField w), encXkk_of_and_F0FF h, rfl⟩

/-- Every row of the map is the row of some instruction. -/
theorem exists_rowOf_of_mem {r : OpcodeRow} (h : r ∈ opcodeTable) : ∃ i, rowOf i = r := by
  simp only [opcodeTable, ← List.map_append] at h
  obtain ⟨i, -, hi⟩ := List.mem_map.mp h
  exact ⟨i, hi⟩

/-- Settles O4: an instruction is the decoding of its own word only, which fits its row; and a word that fits a row is
the word of an instruction of that row, which decodes to it. -/
theorem decodeFollowsOpcodeMap : Obligations.DecodeFollowsOpcodeMap := by
  refine ⟨rfl, fun r hr w => ⟨?_, fun fits => ?_⟩⟩
  · rintro ⟨i, hi, rfl⟩
    rw [← encode_of_decode hi]
    exact fitsRow i
  · obtain ⟨i, rfl⟩ := exists_rowOf_of_mem hr
    obtain ⟨j, rfl, hj⟩ := exists_encode_of_fits i fits
    exact ⟨j, decode_encode j, hj⟩

end Sys2Proof
end

section
/-! The UNKNOWN space (spec/30_encoding.md R72): no instruction's word lies in it, so that its words decode to UNKNOWN. -/

namespace Sys2Proof

/-- R72's table in the fields of the word. -/
theorem inUnknownSpace_eq_fields (w : Word) : inUnknownSpace w =
    (((opField w).toNat == 0 && w != 0x00E0 && w != 0x00EE) ||
     ((opField w).toNat == 5 && (nField w).toNat != 0) ||
     ((opField w).toNat == 8 && [0x8, 0x9, 0xA, 0xB, 0xC, 0xD, 0xF].contains (nField w).toNat) ||
     ((opField w).toNat == 9 && (nField w).toNat != 0) ||
     ((opField w).toNat == 14 && !([0x9E, 0xA1].contains (kkField w).toNat)) ||
     ((opField w).toNat == 15 &&
        !([0x07, 0x0A, 0x15, 0x18, 0x1E, 0x29, 0x33, 0x55, 0x65].contains (kkField w).toNat))) := by
  rw [opField_toNat, nField_toNat, kkField_toNat]
  rfl

/-- No instruction's word lies in the UNKNOWN space: its first digit is of none of the six spaces, or its last digit or
low byte is one that its space leaves out. -/
theorem inUnknownSpace_encode (i : Instr) : inUnknownSpace (encode i) = false := by
  rw [inUnknownSpace_eq_fields]
  cases i with
  | cls | ret => decide
  | jp | call | ldI | jpV0 | seByte | sneByte | ldByte | addByte | rnd | drw => simp [encode]
  | seReg | sneReg | ldReg | orReg | andReg | xorReg | addReg | sub | shr | subn | shl => simp [encode]
  | skp | sknp | ldVxDT | ldVxK | ldDTVx | ldSTVx | addIVx | ldFVx | ldBVx | ldMemVx | ldVxMem => simp [encode]

/-- A word that decodes to UNKNOWN carries itself. -/
theorem eq_of_decode_unknown {w v : Word} (h : decode w = .unknown v) : v = w := by
  have back := encodeDecoded_decode w
  rw [h] at back
  exact back

/-- A word of the UNKNOWN space decodes to UNKNOWN (R72): it is the word of no instruction. -/
theorem decode_of_inUnknownSpace {w : Word} (h : inUnknownSpace w = true) : decode w = .unknown w := by
  cases hd : decode w with
  | unknown v => rw [eq_of_decode_unknown hd]
  | instr i =>
    have outside := inUnknownSpace_encode i
    rw [encode_of_decode hd, h] at outside
    cases outside

end Sys2Proof
end

section
/-! The instruction path of a running core (spec/40_execution_cycle.md R85-R88): the fetch reads what stood at PC when
the step began, and an UNKNOWN word only advances PC. -/

namespace Sys2Proof.Machine

@[simp] theorem State.readV_beginInstr (s : State) (r : Reg) : s.beginInstr.readV r = s.readV r := by
  rw [State.readV, State.beginInstr_v, State.readV]

@[simp] theorem State.readMem_beginInstr (s : State) (a : Nat) : s.beginInstr.readMem a = s.readMem a := by
  rw [State.readMem, State.beginInstr_mem, State.readMem]

@[simp] theorem State.fetchWord_beginInstr (s : State) : s.beginInstr.fetchWord = s.fetchWord := by
  simp [State.fetchWord]

/-- A fetch at a PC of at most 0xFFE lies in memory (R172). -/
theorem State.fetchBeyond_beginInstr {s : State} (h : s.pc.toNat ≤ 0xFFE) : s.beginInstr.fetchBeyond = false := by
  rw [State.fetchBeyond, State.beginInstr_pc, beyondMemory_eq_false, Config.memSize]
  omega

/-- A running core on an UNKNOWN word (R88). -/
theorem step_unknown {s : State} {w : Word} (hr : s.running) (hpc : s.pc.toNat ≤ 0xFFE)
    (hd : decode s.fetchWord = .unknown w) : step s = .next s.beginInstr.advance := by
  obtain ⟨no_fault, not_waiting⟩ := hr
  rw [step_running no_fault not_waiting]
  exact runInstr_unknown (State.fetchBeyond_beginInstr hpc) (by rwa [State.fetchWord_beginInstr])

/-- Settles O8: the word decodes to UNKNOWN, so the step answers beginInstr's state with PC advanced; beginInstr has
counted the timers down and cleared draw, and neither touches anything else. -/
theorem unknownWordOnlyAdvancesPc : Obligations.UnknownWordOnlyAdvancesPc := by
  intro s hr hpc hw
  have same_regs : SameRegsBut [] s s.beginInstr.advance := fun r _ => by simp
  have same_memory : SameMemory s s.beginInstr.advance := fun a => by simp
  refine ⟨_, step_unknown hr hpc (decode_of_inUnknownSpace hw), ?pc, ?dt, ?st, ?draw, ?fb, same_regs, ?index, ?stack,
    same_memory, ?gate, ?fault⟩
  case dt | st => simp [countdown_toNat]
  case pc | draw | fb => simp
  case index | stack | gate | fault => simp [SameIndex, SameStack, SameGate, SameFault]

end Sys2Proof.Machine
end

section
/-! The skips on a compare (spec/41_flow.md R103-R106): each answers skipIf of its condition, so that one lemma
on skipIf gives both outcomes and the frame of all four. -/

namespace Sys2Proof

/-- A word of family 5 or 9 whose last digit is not 0 is UNKNOWN (R72). -/
theorem decode_of_family_5_or_9 {w : Word} (family : w.toNat / 4096 = 5 ∨ w.toNat / 4096 = 9)
    (last : w.toNat % 16 ≠ 0) : decode w = .unknown w := by
  apply decode_of_inUnknownSpace
  rcases family with five | nine
  · have space5 : inUnknown5 w = true := by simp [inUnknown5, five, last]
    simp [inUnknownSpace, space5]
  · have space9 : inUnknown9 w = true := by simp [inUnknown9, nine, last]
    simp [inUnknownSpace, space9]

end Sys2Proof

namespace Sys2Proof.Machine

/-! ### What each skip answers -/

theorem exec_seByte (x : Reg) (kk : Byte) (s : State) :
    exec (.seByte x kk) s = .next (s.skipIf (s.readV x == kk)) := rfl

theorem exec_sneByte (x : Reg) (kk : Byte) (s : State) :
    exec (.sneByte x kk) s = .next (s.skipIf (s.readV x != kk)) := rfl

theorem exec_seReg (x y : Reg) (s : State) :
    exec (.seReg x y) s = .next (s.skipIf (s.readV x == s.readV y)) := rfl

theorem exec_sneReg (x y : Reg) (s : State) :
    exec (.sneReg x y) s = .next (s.skipIf (s.readV x != s.readV y)) := rfl

/-! ### What a skip does -/

/-- A skip changes nothing but PC. -/
theorem State.onlyRegs_skipIf (s : State) (c : Bool) : OnlyRegs [] s (s.skipIf c) where
  regs := fun r _ => s.readV_skipIf c r
  index := s.skipIf_i c
  stack := ⟨s.skipIf_sp c, s.skipIf_stack c, s.skipIf_stackEvent c⟩
  timers := ⟨s.skipIf_dt c, s.skipIf_st c⟩
  memory := s.readMem_skipIf c
  screen := ⟨s.skipIf_fb c, s.skipIf_draw c⟩
  gate := ⟨s.skipIf_waiting c, s.skipIf_waitReg c⟩
  fault := s.skipIf_fault c
  inputs := ⟨s.skipIf_input c, s.skipIf_supplied c, s.skipIf_freeTick c⟩

/-- An instruction that answers skipIf c moves PC by 4 where c is true and by 2 where it is false, and changes nothing
else. -/
theorem skip_of_exec_eq {i : Instr} {s : State} {c : Bool} {taken passed : Prop}
    (answer : exec i s = .next (s.skipIf c)) (on_taken : taken → c = true) (on_passed : passed → c = false) :
    ∃ t, exec i s = .next t ∧ OnlyRegs [] s t ∧ (taken → t.pc = s.pc + 4) ∧ (passed → t.pc = s.pc + 2) := by
  refine ⟨s.skipIf c, answer, s.onlyRegs_skipIf c, fun h => ?_, fun h => ?_⟩
  · simp [on_taken h]
  · simp [on_passed h]

/-- Settles O25: the fixed digits are those of the rows of the opcode map, and each instruction is skipIf of its
compare of V[x] with kk. -/
theorem skipOnImmediate : Obligations.SkipOnImmediate := fun x kk s =>
  ⟨fitsRow (.seByte x kk), fitsRow (.sneByte x kk),
    skip_of_exec_eq (exec_seByte x kk s) beq_iff_eq.mpr beq_eq_false_iff_ne.mpr,
    skip_of_exec_eq (exec_sneByte x kk s) bne_iff_ne.mpr bne_eq_false_iff_eq.mpr⟩

/-- Settles O26: the same for the compare of V[x] with V[y]; the words of the two families with another last digit lie
in the UNKNOWN space. -/
theorem skipOnRegisters : Obligations.SkipOnRegisters := fun x y s =>
  ⟨fitsRow (.seReg x y), fitsRow (.sneReg x y), fun _ => decode_of_family_5_or_9,
    skip_of_exec_eq (exec_seReg x y s) beq_iff_eq.mpr beq_eq_false_iff_ne.mpr,
    skip_of_exec_eq (exec_sneReg x y s) bne_iff_ne.mpr bne_eq_false_iff_eq.mpr⟩

end Sys2Proof.Machine
end

section
/-! The loads, the bitwise operations and the two additions (spec/42_alu.md R117-R123): each writes registers and moves
PC on, so that the frame of all seven is a chain of single register writes. -/

namespace Sys2Proof.Machine

/-! ### Frames of register writes -/

/-- A state changes nothing against itself. -/
theorem OnlyRegs.refl (rs : List Reg) (s : State) : OnlyRegs rs s s where
  regs := fun _ _ => rfl
  index := rfl
  stack := ⟨rfl, rfl, rfl⟩
  timers := ⟨rfl, rfl⟩
  memory := fun _ => rfl
  screen := ⟨rfl, rfl⟩
  gate := ⟨rfl, rfl⟩
  fault := rfl
  inputs := ⟨rfl, rfl, rfl⟩

/-- A write to one of the named registers stays within the frame. -/
theorem OnlyRegs.writeV {rs : List Reg} {s t : State} {r : Reg} (h : OnlyRegs rs s t) (hr : r ∈ rs) (b : Byte) :
    OnlyRegs rs s (t.writeV r b) where
  regs := fun q hq => (t.readV_writeV_ne b (ne_of_mem_of_not_mem hr hq).symm).trans (h.regs q hq)
  index := h.index
  stack := h.stack
  timers := h.timers
  memory := h.memory
  screen := h.screen
  gate := h.gate
  fault := h.fault
  inputs := h.inputs

/-- The frame leaves PC free. -/
theorem OnlyRegs.advance {rs : List Reg} {s t : State} (h : OnlyRegs rs s t) : OnlyRegs rs s t.advance where
  regs := h.regs
  index := h.index
  stack := h.stack
  timers := h.timers
  memory := h.memory
  screen := h.screen
  gate := h.gate
  fault := h.fault
  inputs := h.inputs

theorem State.onlyRegs_setAndAdvance (s : State) (x : Reg) (b : Byte) : OnlyRegs [x] s (s.setAndAdvance x b) :=
  ((OnlyRegs.refl _ s).writeV (by simp) b).advance

theorem State.onlyRegs_resultThenFlag (s : State) (x : Reg) (a f : Byte) :
    OnlyRegs [x, Reg.vf] s (s.resultThenFlag x a f) :=
  ((OnlyRegs.refl _ s).writeV (by simp) a).writeV (by simp) f

/-! ### What each instruction answers -/

theorem exec_ldByte (x : Reg) (kk : Byte) (s : State) :
    exec (.ldByte x kk) s = .next (s.setAndAdvance x kk) := rfl

theorem exec_addByte (x : Reg) (kk : Byte) (s : State) :
    exec (.addByte x kk) s = .next (s.setAndAdvance x (s.readV x + kk)) := rfl

theorem exec_ldReg (x y : Reg) (s : State) :
    exec (.ldReg x y) s = .next (s.setAndAdvance x (s.readV y)) := rfl

theorem exec_orReg (x y : Reg) (s : State) :
    exec (.orReg x y) s = .next (s.setAndAdvance x (s.readV x ||| s.readV y)) := rfl

theorem exec_andReg (x y : Reg) (s : State) :
    exec (.andReg x y) s = .next (s.setAndAdvance x (s.readV x &&& s.readV y)) := rfl

theorem exec_xorReg (x y : Reg) (s : State) :
    exec (.xorReg x y) s = .next (s.setAndAdvance x (s.readV x ^^^ s.readV y)) := rfl

theorem exec_addReg (x y : Reg) (s : State) : exec (.addReg x y) s =
    .next (s.resultThenFlag x (s.readV x + s.readV y) (carryOut (s.readV x) (s.readV y))).advance := rfl

/-! ### One register written, no flag -/

/-- An instruction that answers setAndAdvance leaves that byte in V[x], moves PC by 2 and changes nothing else. -/
theorem set_of_exec_eq {i : Instr} {s : State} {x : Reg} {b : Byte} (answer : exec i s = .next (s.setAndAdvance x b)) :
    ∃ t, exec i s = .next t ∧ t.readV x = b ∧ t.pc = s.pc + 2 ∧ OnlyRegs [x] s t :=
  ⟨_, answer, s.readV_writeV_self x b, rfl, s.onlyRegs_setAndAdvance x b⟩

/-- The same, with the byte given bit by bit. -/
theorem setBits_of_exec_eq {i : Instr} {s : State} {x : Reg} {b : Byte} {bit : Nat → Bool}
    (answer : exec i s = .next (s.setAndAdvance x b)) (bits : ∀ k, b.getLsbD k = bit k) :
    ∃ t, exec i s = .next t ∧ t.pc = s.pc + 2 ∧ OnlyRegs [x] s t ∧ ∀ k, (t.readV x).getLsbD k = bit k := by
  obtain ⟨t, exec_eq, rfl, pc, frame⟩ := set_of_exec_eq answer
  exact ⟨t, exec_eq, pc, frame, bits⟩

/-- Settles O27: the fixed digits are those of the rows of the opcode map, and each instruction sets V[x] to its
byte; 7xkk's byte is the sum of two bytes, which is mod 256. -/
theorem loadAndAddImmediate : Obligations.LoadAndAddImmediate := by
  intro x y kk s
  refine ⟨fitsRow (.ldByte x kk), fitsRow (.addByte x kk), fitsRow (.ldReg x y),
    set_of_exec_eq (exec_ldByte x kk s), ?_, set_of_exec_eq (exec_ldReg x y s)⟩
  obtain ⟨t, exec_eq, sum, pc, frame⟩ := set_of_exec_eq (exec_addByte x kk s)
  exact ⟨t, exec_eq, by rw [sum, BitVec.toNat_add], pc, frame⟩

/-- Settles O28: each instruction sets V[x] to the operation on whole bytes, whose bits are the operation on bits. -/
theorem bitwiseOperations : Obligations.BitwiseOperations := fun x y s =>
  ⟨fitsRow (.orReg x y), fitsRow (.andReg x y), fitsRow (.xorReg x y),
    setBits_of_exec_eq (exec_orReg x y s) fun _ => BitVec.getLsbD_or,
    setBits_of_exec_eq (exec_andReg x y s) fun _ => BitVec.getLsbD_and,
    setBits_of_exec_eq (exec_xorReg x y s) fun _ => BitVec.getLsbD_xor⟩

/-! ### The sum and its carry -/

theorem carryOut_of_gt {a b : Byte} (h : 255 < a.toNat + b.toNat) : carryOut a b = 1 := by
  simp [carryOut, flagByte, h]

theorem carryOut_of_le {a b : Byte} (h : a.toNat + b.toNat ≤ 255) : carryOut a b = 0 := by
  simp [carryOut, flagByte, h]

/-- Settles O29: VF is written last, so it holds the carry of the old values whatever x is, and V[x] holds the sum
where x is not F. -/
theorem addWritesSumThenCarry : Obligations.AddWritesSumThenCarry := by
  intro x y s
  refine ⟨fitsRow (.addReg x y), _, exec_addReg x y s, rfl, (s.onlyRegs_resultThenFlag x _ _).advance, ?sum, ?carry,
    ?no_carry⟩
  case sum =>
    intro hx
    simp [State.readV_resultThenFlag, hx]
  case carry =>
    intro h
    simp [State.readV_resultThenFlag, carryOut_of_gt h]
  case no_carry =>
    intro h
    simp [State.readV_resultThenFlag, carryOut_of_le h]

end Sys2Proof.Machine
end

section
/-! The load of the index register (spec/43_index_memory.md R140): its frame is that of any write to I that moves PC
on. -/

namespace Sys2Proof.Machine

/-- A write to I that moves PC on changes nothing else. -/
theorem State.onlyIndex_setI_advance (s : State) (a : Word) : OnlyIndex s (s.setI a).advance where
  regs := fun r _ => s.readV_setI a r
  stack := ⟨s.setI_sp a, s.setI_stack a, s.setI_stackEvent a⟩
  timers := ⟨s.setI_dt a, s.setI_st a⟩
  memory := s.readMem_setI a
  screen := ⟨s.setI_fb a, s.setI_draw a⟩
  gate := ⟨s.setI_waiting a, s.setI_waitReg a⟩
  fault := s.setI_fault a
  inputs := ⟨s.setI_input a, s.setI_supplied a, s.setI_freeTick a⟩

theorem exec_ldI (nnn : Addr12) (s : State) : exec (.ldI nnn) s = .next (s.setI (zextAddr nnn)).advance := rfl

/-- An instruction that answers a write of a to I and moves PC on leaves a in I, moves PC by 2 and changes nothing
else. -/
theorem setIndex_of_exec_eq {i : Instr} {s : State} {a : Word} (answer : exec i s = .next (s.setI a).advance) :
    ∃ t, exec i s = .next t ∧ t.i = a ∧ t.pc = s.pc + 2 ∧ OnlyIndex s t :=
  ⟨_, answer, by simp, by simp, s.onlyIndex_setI_advance a⟩

/-- Settles O34: the fixed digits are those of the row of the opcode map, and I takes nnn zero-extended, which is the
same number. -/
theorem loadIndexImmediate : Obligations.LoadIndexImmediate := by
  intro nnn s
  obtain ⟨t, exec_eq, index, pc, frame⟩ := setIndex_of_exec_eq (exec_ldI nnn s)
  exact ⟨fitsRow (.ldI nnn), t, exec_eq, by rw [index, zextAddr_toNat], pc, frame⟩

end Sys2Proof.Machine
end

section
/-! The clear of the screen (spec/44_display.md R151): it presents the clear framebuffer and moves PC on, so its frame
is that of any framebuffer presented. -/

namespace Sys2Proof.Machine

/-- Presenting a framebuffer and moving PC on changes no register and nothing outside the screen. -/
theorem State.onlyScreen_present_advance (s : State) (fb : Screen) : OnlyScreen [] s (s.present fb).advance where
  regs := fun r _ => s.readV_present fb r
  index := s.present_i fb
  stack := ⟨s.present_sp fb, s.present_stack fb, s.present_stackEvent fb⟩
  timers := ⟨s.present_dt fb, s.present_st fb⟩
  memory := s.readMem_present fb
  gate := ⟨s.present_waiting fb, s.present_waitReg fb⟩
  fault := s.present_fault fb
  inputs := ⟨s.present_input fb, s.present_supplied fb, s.present_freeTick fb⟩

theorem exec_cls (s : State) : exec .cls s = .next (s.present Screen.clear).advance := rfl

/-- Settles O42: the row of 00E0 has no operand digits, so it is the whole word; the framebuffer presented is the clear
one, whose pixels are all 0. -/
theorem clearScreenClearsAllPixels : Obligations.ClearScreenClearsAllPixels := by
  intro s
  have pixels_off (row : Fin 32) (col : Fin 64) : (s.present Screen.clear).advance.fb.pixel row col = false := by
    rw [State.advance_fb, State.present_fb, Screen.pixel_clear]
  exact ⟨rfl, fitsRow .cls, _, exec_cls s, pixels_off, s.present_draw Screen.clear, by simp,
    s.onlyScreen_present_advance Screen.clear⟩

end Sys2Proof.Machine
end

section
/-! The decoder's outcomes (spec/30_encoding.md R67-R77): each is well-formed, no word fits two rows, and UNKNOWN is what
no row fits. -/

namespace Sys2Proof

/-- Settles O2: an instruction is decoded from its own word, and a word of the UNKNOWN space decodes to UNKNOWN. -/
theorem decodeInvertsEncode : Obligations.DecodeInvertsEncode := by
  intro d wf
  cases d with
  | instr i => exact decode_encode i
  | unknown w => exact decode_of_inUnknownSpace wf

/-! ### What decodes to UNKNOWN lies in the UNKNOWN space -/

theorem wf_decode0 {w : Word} (hop : (opField w).toNat = 0) : (decode0 w).wf = true := by
  unfold decode0
  split_ifs with cls ret
  · rfl
  · rfl
  · rw [Decoded.wf, inUnknownSpace_eq_fields]
    simpa [hop] using ⟨cls, ret⟩

theorem wf_decode8 {w : Word} (hop : (opField w).toNat = 8) : (decode8 w).wf = true := by
  unfold decode8
  split
  case h_10 =>
    have nibble := (nField w).isLt
    simp only [imp_false] at *
    have digit : (nField w).toNat = 0x8 ∨ (nField w).toNat = 0x9 ∨ (nField w).toNat = 0xA ∨ (nField w).toNat = 0xB ∨
        (nField w).toNat = 0xC ∨ (nField w).toNat = 0xD ∨ (nField w).toNat = 0xF := by omega
    rw [Decoded.wf, inUnknownSpace_eq_fields]
    simpa [hop] using digit
  all_goals rfl

theorem wf_decodeE {w : Word} (hop : (opField w).toNat = 14) : (decodeE w).wf = true := by
  unfold decodeE
  split
  case h_3 not_9E not_A1 =>
    rw [Decoded.wf, inUnknownSpace_eq_fields]
    simpa [hop] using ⟨not_9E, not_A1⟩
  all_goals rfl

theorem wf_decodeF {w : Word} (hop : (opField w).toNat = 15) : (decodeF w).wf = true := by
  unfold decodeF
  split
  case h_10 not_07 not_0A not_15 not_18 not_1E not_29 not_33 not_55 not_65 =>
    rw [Decoded.wf, inUnknownSpace_eq_fields]
    simpa [hop] using ⟨not_07, not_0A, not_15, not_18, not_1E, not_29, not_33, not_55, not_65⟩
  all_goals rfl

/-- A word of family 5 or 9 with another last digit than 0 lies in the UNKNOWN space. -/
theorem inUnknownSpace_of_nField {w : Word} (hop : (opField w).toNat = 5 ∨ (opField w).toNat = 9)
    (hn : nField w ≠ 0) : inUnknownSpace w = true := by
  have digit : (nField w).toNat ≠ 0 := fun h => hn (BitVec.eq_of_toNat_eq h)
  rw [inUnknownSpace_eq_fields]
  rcases hop with hop | hop <;> simp [hop, digit]

/-- Every word decodes to a well-formed outcome (R77). -/
theorem wf_decode (w : Word) : (decode w).wf = true := by
  unfold decode
  split
  next h => exact wf_decode0 h
  next => rfl
  next => rfl
  next => rfl
  next => rfl
  next h =>
    split
    · rfl
    · next hn => exact inUnknownSpace_of_nField (.inl h) hn
  next => rfl
  next => rfl
  next h => exact wf_decode8 h
  next h =>
    split
    · rfl
    · next hn => exact inUnknownSpace_of_nField (.inr h) hn
  next => rfl
  next => rfl
  next => rfl
  next => rfl
  next h => exact wf_decodeE h
  next h => exact wf_decodeF h
  next =>
    have nibble := (opField w).isLt
    simp only [imp_false] at *
    omega

/-- Settles O1: each of the words is put through the decoder. -/
theorem specWordsDecodeToTheirInstructions : Obligations.SpecWordsDecodeToTheirInstructions := by
  unfold Obligations.SpecWordsDecodeToTheirInstructions
  decide

/-- Settles O3: the word of what a word decodes to is the word itself, and the outcome is well-formed family by
family. -/
theorem everyWordEncodesItsDecode : Obligations.EveryWordEncodesItsDecode := fun w =>
  ⟨encodeDecoded_decode w, wf_decode w⟩

/-! ### The rows against the decoder -/

/-- Every instruction's row stands in the opcode map. -/
theorem rowOf_mem_opcodeTable (i : Instr) : rowOf i ∈ opcodeTable := by
  cases i <;> simp [opcodeTable, rowOf]

/-- The 34 rows are different rows. -/
theorem opcodeTable_nodup : opcodeTable.Nodup := by decide

/-- A word that fits a row of the map decodes to an instruction of that row (R71). -/
theorem exists_decode_of_hits {r : OpcodeRow} {w : Word} (hr : r ∈ opcodeTable) (hit : r.hits w = true) :
    ∃ i, decode w = .instr i ∧ rowOf i = r :=
  (decodeFollowsOpcodeMap.2 r hr w).mpr (beq_iff_eq.mp hit)

/-- A word that decodes to an instruction fits its row. -/
theorem hits_rowOf {w : Word} {i : Instr} (h : decode w = .instr i) : (rowOf i).hits w = true :=
  beq_iff_eq.mpr (encode_of_decode h ▸ fitsRow i)

/-- Settles O5: two rows that one word fits are both the row of the instruction it decodes to, and the map lists no row
twice; a word that fits a row decodes to an instruction, and an instruction's word fits its row. -/
theorem rowsDisjointUnknownOutside : Obligations.RowsDisjointUnknownOutside := by
  refine ⟨opcodeTable_nodup.imp_of_mem ?disjoint, fun w => ⟨?no_row, ?unknown⟩,
    fun w => ⟨fun h => ?space, decode_of_inUnknownSpace⟩⟩
  case disjoint =>
    rintro r r' hr hr' different w ⟨hit, hit'⟩
    obtain ⟨i, hi, rfl⟩ := exists_decode_of_hits hr hit
    obtain ⟨j, hj, rfl⟩ := exists_decode_of_hits hr' hit'
    have same : i = j := Decoded.instr.inj (hi.symm.trans hj)
    exact different (congrArg rowOf same)
  case no_row =>
    intro h r hr
    rw [Bool.eq_false_iff]
    intro hit
    obtain ⟨i, hi, -⟩ := exists_decode_of_hits hr hit
    cases h.symm.trans hi
  case unknown =>
    intro none_hits
    cases hd : decode w with
    | unknown v => rw [eq_of_decode_unknown hd]
    | instr i =>
      have missed := none_hits (rowOf i) (rowOf_mem_opcodeTable i)
      rw [hits_rowOf hd] at missed
      cases missed
  case space =>
    have wf := wf_decode w
    rwa [h] at wf

end Sys2Proof
end

section
/-! What each instruction answers: the equations of exec that are not stated above, and the frames of the updates they
are built from. -/

namespace Sys2Proof.Machine

/-! ### Control flow, keys and timers -/

theorem exec_jp (nnn : Addr12) (s : State) : exec (.jp nnn) s = .next (s.jumpTo (zextAddr nnn)) := rfl

theorem exec_jpV0 (nnn : Addr12) (s : State) :
    exec (.jpV0 nnn) s = .next (s.jumpTo (zextAddr nnn + zextByte (s.readV 0))) := rfl

theorem exec_call_of_lt {s : State} (nnn : Addr12) (h : s.sp.val < 16) :
    exec (.call nnn) s = .next ((s.push (s.pc + 2)).jumpTo (zextAddr nnn)) :=
  if_neg (Nat.ne_of_lt h)

theorem exec_call_full {s : State} (nnn : Addr12) (h : s.sp.val = 16) :
    exec (.call nnn) s = .next (s.push (s.pc + 2)).advance :=
  if_pos h

theorem exec_ret_of_pos {s : State} (h : 0 < s.sp.val) :
    exec .ret s = .next (s.pop.jumpTo (s.stack[s.sp.val - 1]'(by omega))) := by
  rw [exec, execRet, State.top_of_pos h]

theorem exec_ret_empty {s : State} (h : s.sp.val = 0) : exec .ret s = .next s.pop.advance := by
  rw [exec, execRet, State.top_empty h]

theorem exec_skp (x : Reg) (s : State) : exec (.skp x) s = .next (s.withKey (.skp x) x fun down => down) := rfl

theorem exec_sknp (x : Reg) (s : State) : exec (.sknp x) s = .next (s.withKey (.sknp x) x fun down => !down) := rfl

theorem exec_ldVxDT (x : Reg) (s : State) : exec (.ldVxDT x) s = .next (s.setAndAdvance x s.dt) := rfl

theorem exec_ldVxK (x : Reg) (s : State) : exec (.ldVxK x) s = .next (s.armGate x).advance := rfl

theorem exec_ldDTVx (x : Reg) (s : State) : exec (.ldDTVx x) s = .next (s.setDT (s.readV x)).advance := rfl

theorem exec_ldSTVx (x : Reg) (s : State) : exec (.ldSTVx x) s = .next (s.setST (s.readV x)).advance := rfl

/-! ### Registers and I -/

theorem exec_sub (x y : Reg) (s : State) : exec (.sub x y) s =
    .next (s.flagThenResult Config.vfOrder x (greater (s.readV x) (s.readV y))
      (fun t => t.readV x - t.readV y)).advance := rfl

theorem exec_subn (x y : Reg) (s : State) : exec (.subn x y) s =
    .next (s.flagThenResult Config.vfOrder x (greater (s.readV y) (s.readV x))
      (fun t => t.readV y - t.readV x)).advance := rfl

theorem exec_shr (x y : Reg) (s : State) : exec (.shr x y) s =
    .next (s.flagThenResult Config.vfOrder x (lowBit (s.readV x)) (fun t => t.readV x >>> 1)).advance := rfl

theorem exec_shl (x y : Reg) (s : State) : exec (.shl x y) s =
    .next (s.flagThenResult Config.vfOrder x (highBit (s.readV x)) (fun t => t.readV x <<< 1)).advance := rfl

theorem exec_rnd (x : Reg) (kk : Byte) (s : State) :
    exec (.rnd x kk) s = .next (s.setAndAdvance x (s.input.rnd &&& kk)) := rfl

theorem exec_addIVx (x : Reg) (s : State) :
    exec (.addIVx x) s = .next (s.setI (s.i + zextByte (s.readV x))).advance := rfl

theorem exec_ldFVx (x : Reg) (s : State) :
    exec (.ldFVx x) s = .next (s.setI (zextByte (s.readV x) * 5)).advance := rfl

/-! ### The four instructions with data bytes, each within the check of its whole range -/

/-- What a Dxyn whose sprite lies in memory leaves (R152). -/
def State.drawSprite (s : State) (x y : Reg) (n : Nibble) : State :=
  ((s.present (s.spritePlot x y n).fb).writeV Reg.vf (flagByte (s.spritePlot x y n).hit)).advance

theorem exec_drw (x y : Reg) (n : Nibble) (s : State) : exec (.drw x y n) s =
    .next (s.withDataRange (.drw x y n) (Instr.drw x y n).dataBytes fun t => t.drawSprite x y n) := rfl

theorem exec_ldBVx (x : Reg) (s : State) : exec (.ldBVx x) s =
    .next (s.withDataRange (.ldBVx x) (Instr.ldBVx x).dataBytes
      fun t => (t.writeBytes t.dataAddr (bcdDigits (t.readV x))).advance) := rfl

theorem exec_ldMemVx (x : Reg) (s : State) : exec (.ldMemVx x) s =
    .next (s.withDataRange (.ldMemVx x) (Instr.ldMemVx x).dataBytes
      fun t => (t.storeRegs (regsUpTo x)).advance) := rfl

theorem exec_ldVxMem (x : Reg) (s : State) : exec (.ldVxMem x) s =
    .next (s.withDataRange (.ldVxMem x) (Instr.ldVxMem x).dataBytes
      fun t => (t.loadRegs (regsUpTo x)).advance) := rfl

/-! ### Frames -/

/-- New registers that agree with the old ones outside the named ones, and any PC. -/
theorem OnlyRegs.of_registers {rs : List Reg} {s : State} {vs : Vector Byte 16} (p : Word)
    (same : ∀ r : Reg, r ∉ rs → vs[r] = s.v[r]) : OnlyRegs rs s { s with v := vs, pc := p } where
  regs := same
  index := rfl
  stack := ⟨rfl, rfl, rfl⟩
  timers := ⟨rfl, rfl⟩
  memory := fun _ => rfl
  screen := ⟨rfl, rfl⟩
  gate := ⟨rfl, rfl⟩
  fault := rfl
  inputs := ⟨rfl, rfl, rfl⟩

theorem State.onlyRegs_jumpTo (s : State) (a : Word) : OnlyRegs [] s (s.jumpTo a) :=
  OnlyRegs.of_registers a fun _ _ => rfl

theorem State.onlyRegs_flagThenResult (s : State) (x : Reg) (f : Byte) (g : State → Byte) :
    OnlyRegs [x, Reg.vf] s (s.flagThenResult Config.vfOrder x f g) :=
  ((OnlyRegs.refl _ s).writeV (by simp) f).writeV (by simp) _

theorem State.onlyRegs_loadRegs (s : State) (rs : List Reg) : OnlyRegs rs s (s.loadRegs rs) := by
  have others (r : Reg) (h : r ∉ rs) : (s.loadRegs rs).readV r = s.readV r := by
    rw [State.readV_loadRegs, if_neg h]
  obtain ⟨vs, loaded⟩ := s.loadRegs_eq rs
  rw [loaded] at others ⊢
  exact OnlyRegs.of_registers s.pc others

/-- Any stack, and any PC. -/
theorem OnlyStack.of_stack (s : State) (n : Fin 17) (entries : Vector Word 16) (event : Bool) (p : Word) :
    OnlyStack s { s with sp := n, stack := entries, stackEvent := event, pc := p } where
  regs := fun _ _ => rfl
  index := rfl
  timers := ⟨rfl, rfl⟩
  memory := fun _ => rfl
  screen := ⟨rfl, rfl⟩
  gate := ⟨rfl, rfl⟩
  fault := rfl
  inputs := ⟨rfl, rfl, rfl⟩

/-- Any timers, and any PC. -/
theorem OnlyTimers.of_timers (s : State) (d t : Byte) (p : Word) :
    OnlyTimers s { s with dt := d, st := t, pc := p } where
  regs := fun _ _ => rfl
  index := rfl
  stack := ⟨rfl, rfl, rfl⟩
  memory := fun _ => rfl
  screen := ⟨rfl, rfl⟩
  gate := ⟨rfl, rfl⟩
  fault := rfl
  inputs := ⟨rfl, rfl, rfl⟩

/-- Any gate, and any PC. -/
theorem OnlyGate.of_gate (s : State) (w : Bool) (x : Reg) (p : Word) :
    OnlyGate s { s with waiting := w, waitReg := x, pc := p } where
  regs := fun _ _ => rfl
  index := rfl
  stack := ⟨rfl, rfl, rfl⟩
  timers := ⟨rfl, rfl⟩
  memory := fun _ => rfl
  screen := ⟨rfl, rfl⟩
  fault := rfl
  inputs := ⟨rfl, rfl, rfl⟩

/-- A memory that reads as before outside the n bytes from addr, and any PC. -/
theorem OnlyMemory.of_memory {addr n : Nat} {s : State} {m : Memory} (p : Word)
    (same : SameMemoryBut addr n s { s with mem := m }) : OnlyMemory addr n s { s with mem := m, pc := p } where
  regs := fun _ _ => rfl
  index := rfl
  stack := ⟨rfl, rfl, rfl⟩
  timers := ⟨rfl, rfl⟩
  memory := same
  screen := ⟨rfl, rfl⟩
  gate := ⟨rfl, rfl⟩
  fault := rfl
  inputs := ⟨rfl, rfl, rfl⟩

theorem State.entersFault_raise (s : State) (code : FaultCode) (word info : Word) :
    EntersFault code word info s (s.raise code word info) where
  status := rfl
  pc := rfl
  regs := fun _ _ => rfl
  index := rfl
  stack := ⟨rfl, rfl, rfl⟩
  timers := ⟨rfl, rfl⟩
  memory := fun _ => rfl
  screen := ⟨rfl, rfl⟩
  gate := ⟨rfl, rfl⟩
  inputs := ⟨rfl, rfl, rfl⟩

/-! ### The range check, in an instruction's own data bytes -/

theorem beyondMemory_dataBytes_eq_true {i : Instr} {s : State} (some_byte : 0 < i.dataBytes)
    (beyond : 0xFFF < s.i.toNat + i.dataBytes - 1) : beyondMemory s.dataAddr i.dataBytes = true := by
  rw [beyondMemory_eq_true, State.dataAddr, Config.memSize]
  omega

theorem beyondMemory_dataBytes_eq_false {i : Instr} {s : State}
    (inside : i.dataBytes = 0 ∨ s.i.toNat + i.dataBytes - 1 ≤ 0xFFF) :
    beyondMemory s.dataAddr i.dataBytes = false := by
  rw [beyondMemory_eq_false, State.dataAddr, Config.memSize]
  omega

/-- An instruction with its range in memory answers its body. -/
theorem inside_of_exec_eq {i : Instr} {s : State} {body : State → State}
    (answer : exec i s = .next (s.withDataRange i i.dataBytes body))
    (inside : i.dataBytes = 0 ∨ s.i.toNat + i.dataBytes - 1 ≤ 0xFFF) : exec i s = .next (body s) := by
  rw [answer, State.withDataRange_inside (beyondMemory_dataBytes_eq_false inside)]

theorem exec_drw_inside {x y : Reg} {n : Nibble} {s : State}
    (inside : n.toNat = 0 ∨ s.i.toNat + n.toNat - 1 ≤ 0xFFF) :
    exec (.drw x y n) s = .next (s.drawSprite x y n) :=
  inside_of_exec_eq (exec_drw x y n s) inside

theorem exec_ldBVx_inside {x : Reg} {s : State} (inside : s.i.toNat + 2 ≤ 0xFFF) :
    exec (.ldBVx x) s = .next (s.writeBytes s.dataAddr (bcdDigits (s.readV x))).advance :=
  inside_of_exec_eq (exec_ldBVx x s) (.inr inside)

theorem exec_ldMemVx_inside {x : Reg} {s : State} (inside : s.i.toNat + x.val ≤ 0xFFF) :
    exec (.ldMemVx x) s = .next (s.storeRegs (regsUpTo x)).advance :=
  inside_of_exec_eq (exec_ldMemVx x s) (.inr inside)

theorem exec_ldVxMem_inside {x : Reg} {s : State} (inside : s.i.toNat + x.val ≤ 0xFFF) :
    exec (.ldVxMem x) s = .next (s.loadRegs (regsUpTo x)).advance :=
  inside_of_exec_eq (exec_ldVxMem x s) (.inr inside)

/-- The instructions with data bytes. -/
theorem eq_of_dataBytes_pos {i : Instr} (h : 0 < i.dataBytes) :
    (∃ x y n, i = .drw x y n) ∨ (∃ x, i = .ldBVx x) ∨ (∃ x, i = .ldMemVx x) ∨ ∃ x, i = .ldVxMem x := by
  cases i <;> simp [Instr.dataBytes] at h ⊢

/-- A data range that leaves memory, whatever the instruction (R49, R173). -/
theorem exec_data_beyond {i : Instr} {s : State} (some_byte : 0 < i.dataBytes)
    (beyond : 0xFFF < s.i.toNat + i.dataBytes - 1) :
    exec i s = .next (s.raise .dataOob (encode i) (dataFaultInfo s.i)) := by
  have leaves := beyondMemory_dataBytes_eq_true some_byte beyond
  obtain ⟨x, y, n, rfl⟩ | ⟨x, rfl⟩ | ⟨x, rfl⟩ | ⟨x, rfl⟩ := eq_of_dataBytes_pos some_byte
  · rw [exec_drw, State.withDataRange_beyond leaves]
  · rw [exec_ldBVx, State.withDataRange_beyond leaves]
  · rw [exec_ldMemVx, State.withDataRange_beyond leaves]
  · rw [exec_ldVxMem, State.withDataRange_beyond leaves]

end Sys2Proof.Machine
end

section
/-! What an instruction can do, said once: every instruction answers a next state, and that state differs from the old
one by one of the ten changes below (the "written by" column of spec/10_state.md R37). The statements about all
instructions and about any step follow from this. -/

namespace Sys2Proof.Machine

/-- The registers an instruction may change: its destinations, and VF where it is a flag setter (R22, R37). -/
def MayWriteReg (i : Instr) (r : Reg) : Prop := i.writesReg r = true ∨ (r = Reg.vf ∧ i.setsFlag = true)

/-- The display instructions that run: 00E0, and Dxyn with its sprite in memory (D16, D6). -/
def Displays (i : Instr) (s : State) : Prop :=
  i = .cls ∨ ∃ x y n, i = .drw x y n ∧ (n.toNat = 0 ∨ s.i.toNat + n.toNat - 1 ≤ 0xFFF)

/-- A return from an empty stack and a call on a full one (D7). -/
def RaisesStackEvent (i : Instr) (s : State) : Prop :=
  (i = .ret ∧ s.sp.val = 0) ∨ ∃ nnn, i = .call nnn ∧ s.sp.val = 16

/-- The changes an instruction i can make to a state s, with the instructions that make them. -/
inductive Change (i : Instr) (s : State) : State → Prop
  | regs (vs : Vector Byte 16) (p : Word) (dest : ∀ r : Reg, vs[r] ≠ s.v[r] → MayWriteReg i r) :
    Change i s { s with v := vs, pc := p }
  | stack (n : Fin 17) (entries : Vector Word 16) (event : Bool) (p : Word)
    (writer : (∃ nnn, i = .call nnn) ∨ i = .ret)
    (pushed : ∀ k : Fin 16, entries[k] = s.stack[k] ∨ entries[k] = s.pc + 2)
    (raised : event = s.stackEvent ∨ (event = true ∧ RaisesStackEvent i s)) :
    Change i s { s with sp := n, stack := entries, stackEvent := event, pc := p }
  | index (a p : Word) (writer : (∃ nnn, i = .ldI nnn) ∨ (∃ x, i = .addIVx x) ∨ ∃ x, i = .ldFVx x) :
    Change i s { s with i := a, pc := p }
  | delay (x : Reg) (p : Word) (writer : i = .ldDTVx x) : Change i s { s with dt := s.readV x, pc := p }
  | sound (x : Reg) (p : Word) (writer : i = .ldSTVx x) : Change i s { s with st := s.readV x, pc := p }
  | memory (m : Memory) (p : Word) (writer : (∃ x, i = .ldBVx x) ∨ ∃ x, i = .ldMemVx x)
    (canonical : s.mem.wf = true → m.wf = true) : Change i s { s with mem := m, pc := p }
  | screen (fb : Screen) (vs : Vector Byte 16) (p : Word) (writer : Displays i s)
    (dest : ∀ r : Reg, vs[r] ≠ s.v[r] → MayWriteReg i r) :
    Change i s { s with v := vs, fb := fb, draw := true, pc := p }
  | gate (x : Reg) (p : Word) (writer : i = .ldVxK x) :
    Change i s { s with waiting := true, waitReg := x, pc := p }
  | dataFault (reader : 0 < i.dataBytes) (beyond : 0xFFF < s.i.toNat + i.dataBytes - 1) :
    Change i s (s.raise .dataOob (encode i) (dataFaultInfo s.i))
  | keyFault (x : Reg) (reader : i = .skp x ∨ i = .sknp x) (above : 15 < (s.readV x).toNat) :
    Change i s (s.raise .keyIndex (encode i) (zextByte (s.readV x)))

/-- Where an instruction leaves PC (R87, R100-R102, R107; a faulting one leaves it, R174). -/
inductive PcTarget (s : State) : Word → Prop
  | stays : PcTarget s s.pc
  | advances : PcTarget s (s.pc + 2)
  | skips : PcTarget s (s.pc + 4)
  | jumps (nnn : Addr12) : PcTarget s (zextAddr nnn)
  | jumpsIndexed (nnn : Addr12) (b : Byte) : PcTarget s (zextAddr nnn + zextByte b)
  | returns (k : Fin 16) : PcTarget s s.stack[k]

/-- The instruction answers a next state, by one of the changes and with one of the targets. -/
def Answers (i : Instr) (s : State) : Prop := ∃ t, exec i s = .next t ∧ Change i s t ∧ PcTarget s t.pc

/-! ### By the shape of the answer -/

/-- A frame of registers bounds what has changed. -/
theorem mayWriteReg_of_changed {i : Instr} {rs : List Reg} {s t : State} (frame : OnlyRegs rs s t)
    (named : ∀ r ∈ rs, MayWriteReg i r) (r : Reg) (changed : t.v[r] ≠ s.v[r]) : MayWriteReg i r :=
  named r (by_contra fun out => changed (frame.regs r out))

theorem answers_skipIf {i : Instr} {s : State} {c : Bool} (answer : exec i s = .next (s.skipIf c)) : Answers i s := by
  refine ⟨_, answer, ?change, ?target⟩
  case change =>
    rw [State.skipIf_eq]
    exact .regs s.v _ fun r changed => absurd rfl changed
  case target =>
    rw [State.skipIf_pc]
    split
    · exact .skips
    · exact .advances

theorem answers_jumpTo {i : Instr} {s : State} {a : Word} (answer : exec i s = .next (s.jumpTo a))
    (target : PcTarget s a) : Answers i s :=
  ⟨_, answer, .regs s.v a fun _ changed => absurd rfl changed, target⟩

/-- An answer that writes the registers named and advances. -/
theorem answers_of_onlyRegs {i : Instr} {rs : List Reg} {s t : State} (answer : exec i s = .next t.advance)
    (registers : ∃ vs, t = { s with v := vs }) (frame : OnlyRegs rs s t) (named : ∀ r ∈ rs, MayWriteReg i r) :
    Answers i s := by
  have dest := mayWriteReg_of_changed frame named
  obtain ⟨vs, rfl⟩ := registers
  exact ⟨_, answer, .regs vs _ dest, .advances⟩

theorem answers_setAndAdvance {i : Instr} {s : State} {x : Reg} {b : Byte}
    (answer : exec i s = .next (s.setAndAdvance x b)) (dest : i.writesReg x = true) : Answers i s :=
  answers_of_onlyRegs answer ⟨_, rfl⟩ ((OnlyRegs.refl [x] s).writeV (List.mem_singleton.mpr rfl) b)
    fun _ h => .inl (List.mem_singleton.mp h ▸ dest)

/-- A flag setter's destination and VF. -/
theorem mayWriteReg_of_setsFlag {i : Instr} {x : Reg} (dest : i.writesReg x = true) (flag : i.setsFlag = true)
    (r : Reg) (h : r ∈ [x, Reg.vf]) : MayWriteReg i r := by
  rcases List.mem_pair.mp h with rfl | rfl
  · exact .inl dest
  · exact .inr ⟨rfl, flag⟩

theorem answers_flagThenResult {i : Instr} {s : State} {x : Reg} {f : Byte} {g : State → Byte}
    (answer : exec i s = .next (s.flagThenResult Config.vfOrder x f g).advance) (dest : i.writesReg x = true)
    (flag : i.setsFlag = true) : Answers i s :=
  answers_of_onlyRegs answer (s.flagThenResult_eq _ x f g) (s.onlyRegs_flagThenResult x f g)
    (mayWriteReg_of_setsFlag dest flag)

theorem answers_setI {i : Instr} {s : State} {a : Word} (answer : exec i s = .next (s.setI a).advance)
    (writer : (∃ nnn, i = .ldI nnn) ∨ (∃ x, i = .addIVx x) ∨ ∃ x, i = .ldFVx x) : Answers i s :=
  ⟨_, answer, .index _ _ writer, .advances⟩

theorem answers_withKey {i : Instr} {s : State} {x : Reg} {c : Bool → Bool}
    (answer : exec i s = .next (s.withKey i x c)) (reader : i = .skp x ∨ i = .sknp x) : Answers i s := by
  rcases Nat.lt_or_ge 15 (s.readV x).toNat with above | key
  · rw [State.withKey_none above] at answer
    exact ⟨_, answer, .keyFault x reader above, .stays⟩
  · rw [State.withKey_key key] at answer
    exact answers_skipIf answer

/-- A data instruction faults on its range, or does its body's change and advances. -/
theorem answers_withDataRange {i : Instr} {s : State} {body : State → State}
    (answer : exec i s = .next (s.withDataRange i i.dataBytes body))
    (change : i.dataBytes = 0 ∨ s.i.toNat + i.dataBytes - 1 ≤ 0xFFF → Change i s (body s))
    (advances : (body s).pc = s.pc + 2) : Answers i s := by
  by_cases inside : i.dataBytes = 0 ∨ s.i.toNat + i.dataBytes - 1 ≤ 0xFFF
  · exact ⟨_, inside_of_exec_eq answer inside, change inside, advances ▸ .advances⟩
  · have some_byte : 0 < i.dataBytes := by omega
    have beyond : 0xFFF < s.i.toNat + i.dataBytes - 1 := by omega
    exact ⟨_, exec_data_beyond some_byte beyond, .dataFault some_byte beyond, .stays⟩

/-! ### The instructions with a shape of their own -/

theorem answers_call (nnn : Addr12) (s : State) : Answers (.call nnn) s := by
  rcases Nat.lt_or_eq_of_le (Nat.le_of_lt_succ s.sp.isLt) with room | full
  · refine ⟨_, exec_call_of_lt nnn room, ?_, .jumps nnn⟩
    rw [State.push_of_lt _ room]
    refine .stack _ _ _ _ (.inl ⟨nnn, rfl⟩) (fun k => ?_) (.inl rfl)
    simp only [Fin.getElem_fin, Vector.getElem_set]
    split
    · exact .inr rfl
    · exact .inl rfl
  · refine ⟨_, exec_call_full nnn full, ?_, ?_⟩
    · rw [State.push_full _ full]
      exact .stack s.sp s.stack true _ (.inl ⟨nnn, rfl⟩) (fun _ => .inl rfl) (.inr ⟨rfl, .inr ⟨nnn, rfl, full⟩⟩)
    · rw [State.advance_pc, State.push_pc]
      exact .advances

theorem answers_ret (s : State) : Answers .ret s := by
  rcases Nat.eq_zero_or_pos s.sp.val with empty | some_entry
  · refine ⟨_, exec_ret_empty empty, ?_, ?_⟩
    · rw [State.pop_empty empty]
      exact .stack s.sp s.stack true _ (.inr rfl) (fun _ => .inl rfl) (.inr ⟨rfl, .inl ⟨rfl, empty⟩⟩)
    · rw [State.advance_pc, State.pop_pc]
      exact .advances
  · refine ⟨_, exec_ret_of_pos some_entry, ?_, .returns ⟨s.sp.val - 1, by omega⟩⟩
    rw [State.pop_of_pos some_entry]
    exact .stack _ s.stack s.stackEvent _ (.inr rfl) (fun _ => .inl rfl) (.inl rfl)

theorem answers_drw (x y : Reg) (n : Nibble) (s : State) : Answers (.drw x y n) s := by
  refine answers_withDataRange (exec_drw x y n s) (fun inside => ?_) rfl
  have named (r : Reg) (h : r ∈ [Reg.vf]) : MayWriteReg (.drw x y n) r := .inr ⟨List.mem_singleton.mp h, rfl⟩
  have flag_only := (OnlyRegs.refl [Reg.vf] s).writeV (List.mem_singleton.mpr rfl) (flagByte (s.spritePlot x y n).hit)
  exact .screen _ _ _ (.inr ⟨x, y, n, rfl, inside⟩)
    fun r changed => named r (by_contra fun out => changed (flag_only.regs r out))

/-- The three digits are stored inside memory where the range lies in it. -/
theorem bcdDigits_fit {s : State} (b : Byte) (inside : s.i.toNat + 2 ≤ 0xFFF) :
    s.dataAddr + (bcdDigits b).length ≤ Config.memSize := by
  have three : (bcdDigits b).length = 3 := rfl
  rw [State.dataAddr, Config.memSize, three]
  omega

theorem answers_ldBVx (x : Reg) (s : State) : Answers (.ldBVx x) s := by
  refine answers_withDataRange (exec_ldBVx x s) (fun inside => ?_) rfl
  have inside : s.i.toNat + 2 ≤ 0xFFF := inside.resolve_left (Nat.succ_ne_zero 2)
  exact .memory _ _ (.inl ⟨x, rfl⟩) fun canonical => Memory.writeBytes_wf canonical (bcdDigits_fit _ inside)

/-- The registers up to x are stored inside memory where the range lies in it. -/
theorem store_address_lt {x r : Reg} {s : State} (inside : s.i.toNat + x.val ≤ 0xFFF) (h : r ∈ regsUpTo x) :
    s.dataAddr + r.val < Config.memSize := by
  rw [mem_regsUpTo, Fin.le_def] at h
  rw [State.dataAddr, Config.memSize]
  omega

theorem answers_ldMemVx (x : Reg) (s : State) : Answers (.ldMemVx x) s := by
  refine answers_withDataRange (exec_ldMemVx x s) (fun inside => ?_) (by simp)
  have inside : s.i.toNat + x.val ≤ 0xFFF := inside.resolve_left (Nat.succ_ne_zero x.val)
  have canonical (h : s.mem.wf = true) : (s.storeRegs (regsUpTo x)).mem.wf = true :=
    State.storeRegs_wf h fun _ => store_address_lt inside
  obtain ⟨m, stored⟩ := s.storeRegs_eq (regsUpTo x)
  rw [stored] at canonical ⊢
  exact .memory m _ (.inr ⟨x, rfl⟩) canonical

theorem answers_ldVxMem (x : Reg) (s : State) : Answers (.ldVxMem x) s := by
  refine answers_withDataRange (exec_ldVxMem x s) (fun _ => ?_) (by simp)
  have named (r : Reg) (h : r ∈ regsUpTo x) : MayWriteReg (.ldVxMem x) r :=
    .inl (decide_eq_true ((mem_regsUpTo x r).mp h))
  have dest := mayWriteReg_of_changed (s.onlyRegs_loadRegs (regsUpTo x)) named
  obtain ⟨vs, loaded⟩ := s.loadRegs_eq (regsUpTo x)
  rw [loaded] at dest ⊢
  exact .regs vs _ dest

/-- Every instruction answers a next state, by one of the changes. -/
theorem exec_answers (s : State) : ∀ i : Instr, Answers i s
  | .cls =>
    ⟨_, exec_cls s, .screen Screen.clear s.v _ (.inl rfl) fun _ changed => absurd rfl changed, .advances⟩
  | .ret => answers_ret s
  | .jp nnn => answers_jumpTo (exec_jp nnn s) (.jumps nnn)
  | .call nnn => answers_call nnn s
  | .seByte x kk => answers_skipIf (exec_seByte x kk s)
  | .sneByte x kk => answers_skipIf (exec_sneByte x kk s)
  | .seReg x y => answers_skipIf (exec_seReg x y s)
  | .sneReg x y => answers_skipIf (exec_sneReg x y s)
  | .ldByte x kk => answers_setAndAdvance (exec_ldByte x kk s) (beq_self_eq_true x)
  | .addByte x kk => answers_setAndAdvance (exec_addByte x kk s) (beq_self_eq_true x)
  | .ldReg x y => answers_setAndAdvance (exec_ldReg x y s) (beq_self_eq_true x)
  | .orReg x y => answers_setAndAdvance (exec_orReg x y s) (beq_self_eq_true x)
  | .andReg x y => answers_setAndAdvance (exec_andReg x y s) (beq_self_eq_true x)
  | .xorReg x y => answers_setAndAdvance (exec_xorReg x y s) (beq_self_eq_true x)
  | .addReg x y =>
    answers_of_onlyRegs (exec_addReg x y s) (s.resultThenFlag_eq x _ _) (s.onlyRegs_resultThenFlag x _ _)
      (mayWriteReg_of_setsFlag (beq_self_eq_true x) rfl)
  | .sub x y => answers_flagThenResult (exec_sub x y s) (beq_self_eq_true x) rfl
  | .shr x y => answers_flagThenResult (exec_shr x y s) (beq_self_eq_true x) rfl
  | .subn x y => answers_flagThenResult (exec_subn x y s) (beq_self_eq_true x) rfl
  | .shl x y => answers_flagThenResult (exec_shl x y s) (beq_self_eq_true x) rfl
  | .ldI nnn => answers_setI (exec_ldI nnn s) (.inl ⟨nnn, rfl⟩)
  | .jpV0 nnn => answers_jumpTo (exec_jpV0 nnn s) (.jumpsIndexed nnn _)
  | .rnd x kk => answers_setAndAdvance (exec_rnd x kk s) (beq_self_eq_true x)
  | .drw x y n => answers_drw x y n s
  | .skp x => answers_withKey (exec_skp x s) (.inl rfl)
  | .sknp x => answers_withKey (exec_sknp x s) (.inr rfl)
  | .ldVxDT x => answers_setAndAdvance (exec_ldVxDT x s) (beq_self_eq_true x)
  | .ldVxK x => ⟨_, exec_ldVxK x s, .gate x _ rfl, .advances⟩
  | .ldDTVx x => ⟨_, exec_ldDTVx x s, .delay x _ rfl, .advances⟩
  | .ldSTVx x => ⟨_, exec_ldSTVx x s, .sound x _ rfl, .advances⟩
  | .addIVx x => answers_setI (exec_addIVx x s) (.inr (.inl ⟨x, rfl⟩))
  | .ldFVx x => answers_setI (exec_ldFVx x s) (.inr (.inr ⟨x, rfl⟩))
  | .ldBVx x => answers_ldBVx x s
  | .ldMemVx x => answers_ldMemVx x s
  | .ldVxMem x => answers_ldVxMem x s

/-- The inversion of exec: what it answers is a next state reached by one of the changes. -/
theorem change_of_exec {i : Instr} {s t : State} (h : exec i s = .next t) : Change i s t ∧ PcTarget s t.pc := by
  obtain ⟨t', answer, change, target⟩ := exec_answers s i
  obtain rfl : t' = t := Host.Outcome.next.inj (answer.symm.trans h)
  exact ⟨change, target⟩

/-! ### The statements about every instruction -/

/-- Settles O50: only two of the changes touch a register, and each names the registers it may touch. -/
theorem registersChangeOnlyAsDestinations : Obligations.RegistersChangeOnlyAsDestinations := by
  intro i s t r answer changed
  cases (change_of_exec answer).1 with
  | regs _ _ dest => exact dest r changed
  | screen _ _ _ _ dest => exact dest r changed
  | stack | index | delay | sound | memory | gate | dataFault | keyFault => exact absurd rfl changed

/-- Settles O51: each change touches one kind of state beside PC and registers, and names its writers. -/
theorem stateChangesOnlyByItsWriters : Obligations.StateChangesOnlyByItsWriters := by
  intro i s t answer
  have same_inputs : SameInputs s t := by
    cases (change_of_exec answer).1 <;> exact ⟨rfl, rfl, rfl⟩
  refine ⟨?index_writer, ?stack_writer, ?dt_writer, ?st_writer, ?memory_writer, ?screen_writer, ?gate_writer,
    ?fault_writer, same_inputs⟩
  case index_writer =>
    intro changed
    cases (change_of_exec answer).1 with
    | index _ _ writer => exact writer
    | _ => exact absurd rfl changed
  case stack_writer =>
    intro changed
    cases (change_of_exec answer).1 with
    | stack _ _ _ _ writer => exact writer
    | _ => exact absurd ⟨rfl, rfl, rfl⟩ changed
  case dt_writer =>
    intro changed
    cases (change_of_exec answer).1 with
    | delay x _ writer => exact ⟨x, writer⟩
    | _ => exact absurd rfl changed
  case st_writer =>
    intro changed
    cases (change_of_exec answer).1 with
    | sound x _ writer => exact ⟨x, writer⟩
    | _ => exact absurd rfl changed
  case memory_writer =>
    intro changed
    cases (change_of_exec answer).1 with
    | memory _ _ writer => exact writer
    | _ => exact absurd (fun _ => rfl) changed
  case screen_writer =>
    intro changed
    cases (change_of_exec answer).1 with
    | screen _ _ _ writer => exact writer.imp_right fun ⟨x, y, n, drw, _⟩ => ⟨x, y, n, drw⟩
    | _ => exact absurd ⟨rfl, rfl⟩ changed
  case gate_writer =>
    intro changed
    cases (change_of_exec answer).1 with
    | gate x _ writer => exact ⟨x, writer⟩
    | _ => exact absurd ⟨rfl, rfl⟩ changed
  case fault_writer =>
    intro changed
    cases (change_of_exec answer).1 with
    | dataFault reader => exact .inl reader
    | keyFault x reader => exact .inr (by rcases reader with rfl | rfl <;> rfl)
    | _ => exact absurd rfl changed

end Sys2Proof.Machine
end

section
/-! Who reads the inputs (spec/40_execution_cycle.md R90): an instruction that does not read what is replaced in the
sampled input commutes with replacing it. -/

namespace Sys2Proof.Machine

/-- The state with another input sampled for the present step. -/
def State.setInput (s : State) (inp : StepInput) : State := { s with input := inp }

/-! ### The updates commute with replacing the input -/

theorem State.setInput_skipIf (s : State) (inp : StepInput) (c : Bool) :
    (s.setInput inp).skipIf c = (s.skipIf c).setInput inp := by
  cases c <;> rfl

theorem State.setInput_push (s : State) (inp : StepInput) (ret : Word) :
    (s.setInput inp).push ret = (s.push ret).setInput inp := by
  rcases Nat.lt_or_eq_of_le (Nat.le_of_lt_succ s.sp.isLt) with room | full
  · rw [State.push_of_lt ret room, State.push_of_lt (s := s.setInput inp) ret room]
    rfl
  · rw [State.push_full ret full, State.push_full (s := s.setInput inp) ret full]
    rfl

theorem State.setInput_pop (s : State) (inp : StepInput) : (s.setInput inp).pop = s.pop.setInput inp := by
  rcases Nat.eq_zero_or_pos s.sp.val with empty | some_entry
  · rw [State.pop_empty empty, State.pop_empty (s := s.setInput inp) empty]
    rfl
  · rw [State.pop_of_pos some_entry, State.pop_of_pos (s := s.setInput inp) some_entry]
    rfl

theorem State.setInput_loadRegs (s : State) (inp : StepInput) (rs : List Reg) :
    (s.setInput inp).loadRegs rs = (s.loadRegs rs).setInput inp := by
  induction rs generalizing s with
  | nil => rfl
  | cons r rs ih => exact ih (s.writeV r (s.readMem (s.dataAddr + r.val)))

theorem State.setInput_storeRegs (s : State) (inp : StepInput) (rs : List Reg) :
    (s.setInput inp).storeRegs rs = (s.storeRegs rs).setInput inp := by
  induction rs generalizing s with
  | nil => rfl
  | cons r rs ih => exact ih (s.writeMem (s.dataAddr + r.val) (s.readV r))

theorem State.setInput_withDataRange {s : State} {inp : StepInput} {i : Instr} {n : Nat} {body : State → State}
    (commutes : body (s.setInput inp) = (body s).setInput inp) :
    (s.setInput inp).withDataRange i n body = (s.withDataRange i n body).setInput inp := by
  cases range : beyondMemory s.dataAddr n with
  | false =>
    rw [State.withDataRange_inside range, State.withDataRange_inside (s := s.setInput inp) range, commutes]
  | true =>
    rw [State.withDataRange_beyond range, State.withDataRange_beyond (s := s.setInput inp) range]
    rfl

theorem State.setInput_withKey {s : State} {inp : StepInput} (same_keys : inp.keys = s.input.keys) (i : Instr)
    (x : Reg) (c : Bool → Bool) : (s.setInput inp).withKey i x c = (s.withKey i x c).setInput inp := by
  rcases Nat.lt_or_ge 15 (s.readV x).toNat with above | key
  · rw [State.withKey_none above, State.withKey_none (s := s.setInput inp) above]
    rfl
  · rw [State.withKey_key key, State.withKey_key (s := s.setInput inp) key, State.setInput_skipIf]
    simp only [State.setInput, same_keys]
    rfl

/-! ### So do the instructions -/

/-- The instruction does the same from another input. -/
def InputUnread (i : Instr) (s : State) (inp : StepInput) : Prop :=
  ∀ t, exec i s = .next t → exec i (s.setInput inp) = .next (t.setInput inp)

theorem inputUnread_of_eq {i : Instr} {s t u : State} {inp : StepInput} (answer : exec i s = .next t)
    (answer' : exec i (s.setInput inp) = .next u) (commutes : u = t.setInput inp) : InputUnread i s inp := by
  intro t' h
  obtain rfl : t = t' := Host.Outcome.next.inj (answer.symm.trans h)
  rw [answer', commutes]

theorem inputUnread_ret (s : State) (inp : StepInput) : InputUnread .ret s inp := by
  rcases Nat.eq_zero_or_pos s.sp.val with empty | some_entry
  · exact inputUnread_of_eq (exec_ret_empty empty) (exec_ret_empty (s := s.setInput inp) empty)
      (congrArg State.advance (s.setInput_pop inp))
  · exact inputUnread_of_eq (exec_ret_of_pos some_entry) (exec_ret_of_pos (s := s.setInput inp) some_entry)
      (congrArg (State.jumpTo · _) (s.setInput_pop inp))

theorem inputUnread_call (nnn : Addr12) (s : State) (inp : StepInput) : InputUnread (.call nnn) s inp := by
  rcases Nat.lt_or_eq_of_le (Nat.le_of_lt_succ s.sp.isLt) with room | full
  · exact inputUnread_of_eq (exec_call_of_lt nnn room) (exec_call_of_lt (s := s.setInput inp) nnn room)
      (congrArg (State.jumpTo · _) (s.setInput_push inp _))
  · exact inputUnread_of_eq (exec_call_full nnn full) (exec_call_full (s := s.setInput inp) nnn full)
      (congrArg State.advance (s.setInput_push inp _))

/-- An input may be replaced where the instruction does not read what is new in it. -/
theorem exec_setInput {i : Instr} {s : State} {inp : StepInput}
    (keys : i.testsKey = false ∨ inp.keys = s.input.keys)
    (rnd : (∀ x kk, i ≠ .rnd x kk) ∨ inp.rnd = s.input.rnd) : InputUnread i s inp := by
  cases i with
  | ret => exact inputUnread_ret s inp
  | call nnn => exact inputUnread_call nnn s inp
  | seByte | sneByte | seReg | sneReg => exact inputUnread_of_eq rfl rfl (s.setInput_skipIf inp _)
  | skp | sknp =>
    have same_keys := keys.resolve_left (by simp [Instr.testsKey])
    exact inputUnread_of_eq rfl rfl (State.setInput_withKey same_keys _ _ _)
  | rnd x kk =>
    have same_rnd := rnd.resolve_left (fun other => other x kk rfl)
    exact inputUnread_of_eq (exec_rnd x kk s) (exec_rnd x kk _)
      (congrArg (fun r => (s.setInput inp).setAndAdvance x (r &&& kk)) same_rnd)
  | drw | ldBVx => exact inputUnread_of_eq rfl rfl (State.setInput_withDataRange rfl)
  | ldMemVx x =>
    exact inputUnread_of_eq (exec_ldMemVx x s) (exec_ldMemVx x _)
      (State.setInput_withDataRange (congrArg State.advance (s.setInput_storeRegs inp _)))
  | ldVxMem x =>
    exact inputUnread_of_eq (exec_ldVxMem x s) (exec_ldVxMem x _)
      (State.setInput_withDataRange (congrArg State.advance (s.setInput_loadRegs inp _)))
  | _ => exact inputUnread_of_eq rfl rfl rfl

/-- Settles O52: replacing the keys keeps the random byte, and the other way round. -/
theorem inputsReadOnlyWhereSaid : Obligations.InputsReadOnlyWhereSaid := fun _ s t keys rnd answer =>
  ⟨fun no_key_test => exec_setInput (inp := ⟨keys, s.input.rnd⟩) (.inl no_key_test) (.inr rfl) t answer,
    fun no_rnd => exec_setInput (inp := ⟨s.input.keys, rnd⟩) (.inr rfl) (.inl no_rnd) t answer⟩

end Sys2Proof.Machine
end

section
/-! The step (spec/40_execution_cycle.md R80), said once: every step answers a next state, by one of six cases. The
statements about any step follow from this and from the changes an instruction can make. -/

namespace Sys2Proof.Machine

/-! ### A core that executes an instruction -/

/-- The step of a core that executes an instruction is that instruction's meaning (R86). -/
theorem step_executes {s : State} {i : Instr} (h : s.executes i) : step s = exec i s.beginInstr := by
  obtain ⟨⟨no_fault, not_waiting⟩, in_memory, decodes⟩ := h
  rw [step_running no_fault not_waiting]
  exact runInstr_instr (State.fetchBeyond_beginInstr in_memory) (by rw [State.fetchWord_beginInstr]; exact decodes)

/-- A fetch that starts at 0xFFF or above leaves memory (R172). -/
theorem step_fetch_beyond {s : State} (hr : s.running) (h : 0xFFF ≤ s.pc.toNat) :
    step s = .next (s.beginInstr.raise .fetchOob 0 s.pc) := by
  obtain ⟨no_fault, not_waiting⟩ := hr
  have leaves : s.beginInstr.fetchBeyond = true := by
    rw [State.fetchBeyond, beyondMemory_eq_true, State.beginInstr_pc, Config.memSize]
    omega
  rw [step_running no_fault not_waiting, runInstr_beyond leaves, State.beginInstr_pc]

/-- The scan finds a key that is down with none lower (R83). -/
theorem lowestKey_eq_some {keys : BitVec 16} {k : Fin 16} (down : keys.getLsbD k = true)
    (lowest : ∀ j : Fin 16, j < k → keys.getLsbD j = false) : lowestKey keys = some k.val := by
  rw [lowestKey, List.find?_range_eq_some]
  refine ⟨down, List.mem_range.mpr k.isLt, fun j hj => ?_⟩
  simpa using lowest ⟨j, by omega⟩ hj

/-- A gate poll with no key down does nothing. -/
theorem step_idle {s : State} (no_fault : s.fault.code = .none) (waiting : s.waiting = true)
    (no_key : s.beginStep.input.keys = 0) : step s = .next s.beginStep := by
  rw [step_waiting no_fault waiting, State.pollGate, lowestKey_none.mpr no_key]

/-- A gate poll that finds a key resolves the gate with it. -/
theorem step_resolves {s : State} {k : Nat} (no_fault : s.fault.code = .none) (waiting : s.waiting = true)
    (key : lowestKey s.beginStep.input.keys = some k) :
    step s = .next (s.beginStep.resolveGate (BitVec.ofNat 8 k)) := by
  rw [step_waiting no_fault waiting, State.pollGate, key]

/-! ### The six cases of a step -/

/-- What a step can do. -/
inductive StepCase (s : State) : State → Prop
  | faulted (h : s.fault.code ≠ .none) : StepCase s s.beginStep
  | idle (no_fault : s.fault.code = .none) (waiting : s.waiting = true) : StepCase s s.beginStep
  | resolves (no_fault : s.fault.code = .none) (waiting : s.waiting = true) (b : Byte) :
    StepCase s (s.beginStep.resolveGate b)
  | fetchFault (running : s.running) (beyond : 0xFFF ≤ s.pc.toNat) :
    StepCase s (s.beginInstr.raise .fetchOob 0 s.pc)
  | unknown (running : s.running) (in_memory : s.pc.toNat ≤ 0xFFE) (nothing : ∀ i, ¬ s.executes i) :
    StepCase s s.beginInstr.advance
  | instr (i : Instr) (t : State) (executes : s.executes i) (answer : exec i s.beginInstr = .next t) : StepCase s t

/-- A waiting core idles or resolves its gate. -/
theorem step_answers_waiting {s : State} (no_fault : s.fault.code = .none) (waiting : s.waiting = true) :
    ∃ t, step s = .next t ∧ StepCase s t := by
  cases key : lowestKey s.beginStep.input.keys with
  | none => exact ⟨_, step_idle no_fault waiting (lowestKey_none.mp key), .idle no_fault waiting⟩
  | some k => exact ⟨_, step_resolves no_fault waiting key, .resolves no_fault waiting _⟩

/-- A running core faults on its fetch, or executes what it has fetched. -/
theorem step_answers_running {s : State} (running : s.running) : ∃ t, step s = .next t ∧ StepCase s t := by
  rcases Nat.lt_or_ge s.pc.toNat 0xFFF with in_memory | beyond
  · have in_memory : s.pc.toNat ≤ 0xFFE := Nat.le_of_lt_succ in_memory
    cases decodes : decode s.fetchWord with
    | instr i =>
      have executes : s.executes i := ⟨running, in_memory, decodes⟩
      obtain ⟨t, answer, -⟩ := exec_answers s.beginInstr i
      exact ⟨t, (step_executes executes).trans answer, .instr i t executes answer⟩
    | unknown w =>
      have nothing (i : Instr) (h : s.executes i) : False := Decoded.noConfusion (decodes.symm.trans h.2.2)
      exact ⟨_, step_unknown running in_memory decodes, .unknown running in_memory nothing⟩
  · exact ⟨_, step_fetch_beyond running beyond, .fetchFault running beyond⟩

/-- Every step answers a next state, by one of the cases. -/
theorem step_answers (s : State) : ∃ t, step s = .next t ∧ StepCase s t := by
  by_cases no_fault : s.fault.code = .none
  · cases waiting : s.waiting with
    | true => exact step_answers_waiting no_fault waiting
    | false => exact step_answers_running ⟨no_fault, waiting⟩
  · exact ⟨_, step_faulted no_fault, .faulted no_fault⟩

/-- The inversion of the step. -/
theorem case_of_step {s t : State} (h : step s = .next t) : StepCase s t := by
  obtain ⟨t', answer, stepCase⟩ := step_answers s
  obtain rfl : t' = t := Host.Outcome.next.inj (answer.symm.trans h)
  exact stepCase

/-! ### How a step begins -/

@[simp] theorem State.readV_beginStep (s : State) (r : Reg) : s.beginStep.readV r = s.readV r := by
  rw [State.readV, State.beginStep_v, State.readV]

@[simp] theorem State.readMem_beginStep (s : State) (a : Nat) : s.beginStep.readMem a = s.readMem a := by
  rw [State.readMem, State.beginStep_mem, State.readMem]

/-- The next input that the host has laid out is taken (R90). -/
theorem State.beginStep_of_cons {s : State} {inp : StepInput} {rest : List StepInput} (h : s.supplied = inp :: rest) :
    s.beginStep = { s with draw := false, input := inp, supplied := rest } := by
  simp [State.beginStep, State.sample, h, State.clearDraw]

/-- A free input is taken where none is laid out. -/
theorem State.beginStep_of_nil {s : State} (h : s.supplied = []) :
    s.beginStep.supplied = [] ∧ s.beginStep.freeTick = s.freeTick + 1 := by
  simp [State.beginStep, State.sample, h]

/-- Settles O6: sampling touches the three input fields, clearDraw the flag, tickTimers the two timers. -/
theorem stepBeginsWithInputDrawAndTimers : Obligations.StepBeginsWithInputDrawAndTimers := by
  intro s
  refine ⟨?taken, State.beginStep_of_nil, rfl, by simp, by simp, fun r _ => by simp, ?index, ?stack, ?timers,
    fun a => by simp, ?gate, ?fault, by simp [countdown_toNat], by simp [countdown_toNat], by simp,
    OnlyTimers.of_timers s.beginStep _ _ _⟩
  case taken =>
    intro inp rest laid_out
    rw [State.beginStep_of_cons laid_out]
    exact ⟨rfl, rfl, rfl⟩
  case index | stack | timers | gate | fault => simp [SameIndex, SameStack, SameTimers, SameGate, SameFault]

/-- Settles O7: the hypotheses say that the core executes i. -/
theorem stepRunsTheDecodedInstruction : Obligations.StepRunsTheDecodedInstruction := fun _ _ running in_memory decodes =>
  step_executes ⟨running, in_memory, decodes⟩

/-- Settles O9: a faulted step is the beginning of a step and no more. -/
theorem faultedCoreDoesNothing : Obligations.FaultedCoreDoesNothing := by
  intro s faulted
  refine ⟨_, step_faulted faulted, rfl, by simp, by simp, fun r _ => by simp, ?index, ?stack, ?timers,
    fun a => by simp, ?gate, ?fault⟩
  case index | stack | timers | gate | fault => simp [SameIndex, SameStack, SameTimers, SameGate, SameFault]

/-- Settles O14: the fetch is checked against memory in the state beginInstr describes. -/
theorem fetchBeyondMemoryFaults : Obligations.FetchBeyondMemoryFaults := by
  intro s running beyond
  exact ⟨_, step_fetch_beyond running beyond, s.beginInstr.entersFault_raise .fetchOob 0 s.pc⟩

/-- Settles O15: each of the six cases is a next state. -/
theorem everyStepAnswersNext : Obligations.EveryStepAnswersNext := fun s =>
  (step_answers s).imp fun _ answer => answer.1

/-! ### The gate -/

/-- Settles O10: the poll's scan finds no key, or the key that is down with none lower, which it writes as a byte. -/
theorem gatePollTakesLowestKey : Obligations.GatePollTakesLowestKey := by
  intro s no_fault waiting
  refine ⟨step_idle no_fault waiting, fun k down lowest => ?_⟩
  refine ⟨_, step_resolves no_fault waiting (lowestKey_eq_some down lowest), ?key, rfl, by simp, by simp, by simp,
    by simp, ?regs, ?index, ?stack, ?timers, fun a => s.readMem_beginStep a, ?fault⟩
  case key =>
    have small : k.val < 256 := by omega
    simp [Nat.mod_eq_of_lt small]
  case regs =>
    intro r other
    have other : r ≠ s.waitReg := by simpa using other
    simp [State.readV_writeV_ne _ _ other]
  case index | stack | timers | fault => simp [SameIndex, SameStack, SameTimers, SameFault]

/-- Settles O11, by induction on the inputs laid out: with no key down each step only begins, which keeps the core
waiting. -/
theorem waitingCoreIsFrozenWithoutKeys : Obligations.WaitingCoreIsFrozenWithoutKeys := by
  intro n s ins rest no_fault waiting laid_out length no_keys
  subst length
  induction ins generalizing s with
  | nil =>
    exact ⟨s, rfl, laid_out, waiting, rfl, rfl, fun _ _ => rfl, rfl, ⟨rfl, rfl, rfl⟩, ⟨rfl, rfl⟩, fun _ => rfl,
      ⟨rfl, rfl⟩, rfl⟩
  | cons inp ins ih =>
    have begun := State.beginStep_of_cons laid_out
    have idle : step s = .next s.beginStep :=
      step_idle no_fault waiting (by rw [begun]; exact no_keys inp List.mem_cons_self)
    rw [List.length_cons, core_run_next _ idle, begun]
    exact ih _ no_fault waiting rfl fun i hi => no_keys i (List.mem_cons_of_mem inp hi)

/-! ### The timers -/

/-- Over a step of a running core each timer is counted down, or set by the instruction executed. -/
theorem timers_of_step {s t : State} (running : s.running) (answer : step s = .next t) :
    (t.dt = countdown s.dt ∨ ∃ x, s.executes (.ldDTVx x)) ∧
    (t.st = countdown s.st ∨ ∃ x, s.executes (.ldSTVx x)) := by
  cases case_of_step answer with
  | faulted h => exact absurd running.1 h
  | idle _ waiting | resolves _ waiting => simp [running.2] at waiting
  | fetchFault | unknown => exact ⟨.inl (by simp), .inl (by simp)⟩
  | instr i _ executes answer =>
    cases (change_of_exec answer).1 with
    | delay x _ writer => exact ⟨.inr ⟨x, writer ▸ executes⟩, .inl s.beginInstr_st⟩
    | sound x _ writer => exact ⟨.inl s.beginInstr_dt, .inr ⟨x, writer ▸ executes⟩⟩
    | _ => exact ⟨.inl s.beginInstr_dt, .inl s.beginInstr_st⟩

/-- Settles O12: a core that is not running only begins its step or resolves its gate, which keeps the timers; a running
one counts them down before its instruction, which changes a timer only by setting it. -/
theorem timersCountExecutedSteps : Obligations.TimersCountExecutedSteps := by
  intro s t answer
  refine ⟨fun stopped => ?stopped, fun running no_setter => ?counts_dt, fun running no_setter => ?counts_st,
    fun x executes => ?sets_dt, fun x executes => ?sets_st⟩
  case stopped =>
    cases case_of_step answer with
    | faulted | idle | resolves => simp
    | fetchFault running | unknown running => exact absurd running stopped
    | instr _ _ executes => exact absurd executes.1 stopped
  case counts_dt =>
    rw [(timers_of_step running answer).1.resolve_right fun ⟨x, setter⟩ => no_setter x setter, countdown_toNat]
  case counts_st =>
    rw [(timers_of_step running answer).2.resolve_right fun ⟨x, setter⟩ => no_setter x setter, countdown_toNat]
  case sets_dt =>
    rw [step_executes executes, exec_ldDTVx] at answer
    obtain rfl := Host.Outcome.next.inj answer
    simp
  case sets_st =>
    rw [step_executes executes, exec_ldSTVx] at answer
    obtain rfl := Host.Outcome.next.inj answer
    simp

/-- Settles O13, by induction on the number of steps: each counts ST down by 1. -/
theorem toneLastsItsCount : Obligations.ToneLastsItsCount := by
  intro n f steps
  induction n with
  | zero => rfl
  | succ n ih =>
    obtain ⟨running, no_setter, answer⟩ := steps n (Nat.lt_succ_self n)
    have last := (timersCountExecutedSteps _ _ answer).2.2.1 running no_setter
    have before := ih fun k hk => steps k (Nat.lt_succ_of_lt hk)
    omega

/-! ### The faults, the draw flag and stack_event -/

/-- An instruction's faults, from a core that has none (R171). -/
theorem fault_code_of_exec {i : Instr} {s t : State} (no_fault : s.fault.code = .none) (answer : exec i s = .next t) :
    t.fault.code ≠ .fetchOob ∧
    (t.fault.code = .dataOob ↔ 0 < i.dataBytes ∧ 0xFFF < s.i.toNat + i.dataBytes - 1) ∧
    (t.fault.code = .keyIndex ↔ ∃ x, (i = .skp x ∨ i = .sknp x) ∧ 15 < (s.readV x).toNat) := by
  refine ⟨fun code => ?_, ⟨fun code => ?_, ?_⟩, ⟨fun code => ?_, ?_⟩⟩
  · cases (change_of_exec answer).1 with
    | dataFault | keyFault => cases code
    | _ => cases no_fault.symm.trans code
  · cases (change_of_exec answer).1 with
    | dataFault reader beyond => exact ⟨reader, beyond⟩
    | keyFault => cases code
    | _ => cases no_fault.symm.trans code
  · rintro ⟨reader, beyond⟩
    rw [exec_data_beyond reader beyond] at answer
    obtain rfl := Host.Outcome.next.inj answer
    rfl
  · cases (change_of_exec answer).1 with
    | keyFault x reader above => exact ⟨x, reader, above⟩
    | dataFault => cases code
    | _ => cases no_fault.symm.trans code
  · rintro ⟨x, rfl | rfl, above⟩
    · rw [exec_skp, State.withKey_none above] at answer
      obtain rfl := Host.Outcome.next.inj answer
      rfl
    · rw [exec_sknp, State.withKey_none above] at answer
      obtain rfl := Host.Outcome.next.inj answer
      rfl

/-- Settles O16: a running core without a fault gets one from its fetch or from the one instruction it executes, which
faults on its own conditions. -/
theorem faultsExactlyOnTheirConditions : Obligations.FaultsExactlyOnTheirConditions := by
  intro s running
  obtain ⟨t, answer, stepCase⟩ := step_answers s
  have origin : t.fault.code = .none ∨ (t.fault.code = .fetchOob ∧ 0xFFF ≤ s.pc.toNat) ∨ ∃ i, s.executes i := by
    cases stepCase with
    | faulted h => exact absurd running.1 h
    | idle | resolves | unknown => exact .inl (by simpa using running.1)
    | fetchFault _ beyond => exact .inr (.inl ⟨rfl, beyond⟩)
    | instr i _ executes => exact .inr (.inr ⟨i, executes⟩)
  have by_instr {i : Instr} (executes : s.executes i) : t.fault.code ≠ .fetchOob ∧
      (t.fault.code = .dataOob ↔ 0 < i.dataBytes ∧ 0xFFF < s.i.toNat + i.dataBytes - 1) ∧
      (t.fault.code = .keyIndex ↔ ∃ x, (i = .skp x ∨ i = .sknp x) ∧ 15 < (s.readV x).toNat) := by
    simpa using fault_code_of_exec (by simpa using running.1) ((step_executes executes).symm.trans answer)
  refine ⟨t, answer, ⟨fun code => ?_, fun beyond => ?_⟩, ⟨fun code => ?_, ?_⟩, ⟨fun code => ?_, ?_⟩⟩
  · obtain none | ⟨-, beyond⟩ | ⟨i, executes⟩ := origin
    · cases none.symm.trans code
    · exact beyond
    · exact absurd code (by_instr executes).1
  · rw [step_fetch_beyond running beyond] at answer
    obtain rfl := Host.Outcome.next.inj answer
    rfl
  · obtain none | ⟨fetch, -⟩ | ⟨i, executes⟩ := origin
    · cases none.symm.trans code
    · cases fetch.symm.trans code
    · exact ⟨i, executes, (by_instr executes).2.1.mp code⟩
  · rintro ⟨i, executes, condition⟩
    exact (by_instr executes).2.1.mpr condition
  · obtain none | ⟨fetch, -⟩ | ⟨i, executes⟩ := origin
    · cases none.symm.trans code
    · cases fetch.symm.trans code
    · obtain ⟨x, rfl | rfl, above⟩ := (by_instr executes).2.2.mp code
      · exact ⟨x, .inl executes, above⟩
      · exact ⟨x, .inr executes, above⟩
  · rintro ⟨x, executes | executes, above⟩
    · exact (by_instr executes).2.2.mpr ⟨x, .inl rfl, above⟩
    · exact (by_instr executes).2.2.mpr ⟨x, .inr rfl, above⟩

/-- The flag after an instruction that found it clear (D16). -/
theorem draw_of_exec {i : Instr} {s t : State} (clear : s.draw = false) (answer : exec i s = .next t) :
    t.draw = true ↔ Displays i s := by
  constructor
  · intro set
    cases (change_of_exec answer).1 with
    | screen _ _ _ writer => exact writer
    | _ => exact absurd (clear.symm.trans set) Bool.false_ne_true
  · rintro (rfl | ⟨x, y, n, rfl, inside⟩)
    · rw [exec_cls] at answer
      obtain rfl := Host.Outcome.next.inj answer
      rfl
    · rw [exec_drw_inside inside] at answer
      obtain rfl := Host.Outcome.next.inj answer
      rfl

/-- Settles O17: every step begins with the flag clear, so only the instruction executed can set it. -/
theorem drawFlagTellsDisplayInstruction : Obligations.DrawFlagTellsDisplayInstruction := by
  intro s
  obtain ⟨t, answer, stepCase⟩ := step_answers s
  have by_instr {i : Instr} (executes : s.executes i) : t.draw = true ↔ Displays i s := by
    simpa [Displays] using draw_of_exec s.beginInstr_draw ((step_executes executes).symm.trans answer)
  refine ⟨t, answer, fun set => ?_, ?_⟩
  · cases stepCase with
    | faulted | idle | resolves | fetchFault | unknown => simp at set
    | instr i _ executes =>
      obtain rfl | ⟨x, y, n, rfl, inside⟩ := (by_instr executes).mp set
      · exact .inl executes
      · exact .inr ⟨x, y, n, executes, inside⟩
  · rintro (executes | ⟨x, y, n, executes, inside⟩)
    · exact (by_instr executes).mpr (.inl rfl)
    · exact (by_instr executes).mpr (.inr ⟨x, y, n, rfl, inside⟩)

/-- Settles O18: a faulted core does nothing, and stack_event changes by a call or a return that raises it. -/
theorem faultAndStackEventAreSticky : Obligations.FaultAndStackEventAreSticky := by
  intro s t answer
  have event : t.stackEvent = s.stackEvent ∨
      (t.stackEvent = true ∧ ∃ i, s.executes i ∧ RaisesStackEvent i s) := by
    cases case_of_step answer with
    | faulted | idle | resolves | fetchFault | unknown => exact .inl (by simp)
    | instr i _ executes answer =>
      cases (change_of_exec answer).1 with
      | stack _ _ _ _ _ _ raised =>
        refine raised.imp (fun same => same.trans s.beginInstr_stackEvent) fun ⟨set, raises⟩ => ⟨set, i, executes, ?_⟩
        simpa only [RaisesStackEvent, State.beginInstr_sp] using raises
      | _ => exact .inl s.beginInstr_stackEvent
  refine ⟨fun faulted => ?_, fun set => ?_, fun clear set => ?_⟩
  · rw [step_faulted faulted] at answer
    obtain rfl := Host.Outcome.next.inj answer
    simp
  · rcases event with same | ⟨set', -⟩
    · exact same.trans set
    · exact set'
  · rcases event with same | ⟨-, i, executes, raises⟩
    · exact absurd (clear.symm.trans (same.symm.trans set)) Bool.false_ne_true
    · obtain ⟨rfl, empty⟩ | ⟨nnn, rfl, full⟩ := raises
      · exact .inl ⟨executes, empty⟩
      · exact .inr ⟨nnn, executes, full⟩

end Sys2Proof.Machine
end

section
/-! The invariant of the machine (spec/10_state.md R24, 60_exceptions.md R171-R176): it holds at reset and after a load,
each change an instruction can make keeps it, and so does every case of a step. -/

namespace Sys2Proof.Machine

/-! ### At reset and after a load -/

/-- A fault status without a fault is right for every PC. -/
theorem FaultStatus.ok_of_none {f : FaultStatus} {pc pc' : Word} (none : f.code = .none) (ok : f.ok pc) : f.ok pc' := by
  simpa [FaultStatus.ok, none] using ok

/-- A state without a fault keeps the invariant where memory stays canonical and PC and the stack stay in bounds. -/
theorem State.Inv.of_no_fault {s t : State} (inv : s.Inv) (no_fault : s.fault.code = .none) (same : t.fault = s.fault)
    (memory : t.mem.wf = true) (pcBound : t.pc.toNat ≤ 0x10FE)
    (stackBound : ∀ k : Fin 16, (t.stack[k]).toNat ≤ 0x1000) : t.Inv where
  memory := memory
  pcBound := pcBound
  stackBound := stackBound
  faultRecord := same ▸ FaultStatus.ok_of_none no_fault inv.faultRecord
  faultQuiet := fun faulted => absurd (same ▸ no_fault) faulted

theorem inv_reset : State.reset.Inv where
  memory := rfl
  pcBound := by decide
  stackBound := fun k => by rw [State.stack_reset k]; exact Nat.zero_le _
  faultRecord := ⟨rfl, rfl, rfl⟩
  faultQuiet := fun faulted => absurd rfl faulted

/-- Settles O55: the load keeps memory canonical and changes nothing else. -/
theorem invariantHoldsAtBoot : Obligations.InvariantHoldsAtBoot :=
  ⟨inv_reset, fun image => inv_reset.of_no_fault rfl rfl (Memory.loadImage_wf image inv_reset.memory) inv_reset.pcBound
    inv_reset.stackBound⟩

/-! ### Over an instruction -/

/-- PC + 2 as a number, from a PC that a word was fetched at. -/
theorem pc_add_two_toNat {a : Word} (in_memory : a.toNat ≤ 0xFFE) : (a + 2).toNat = a.toNat + 2 := by
  have two : (2 : Word).toNat = 2 := rfl
  rw [BitVec.toNat_add, two]
  omega

/-- PC + 4 as a number, from a PC that a word was fetched at. -/
theorem pc_add_four_toNat {a : Word} (in_memory : a.toNat ≤ 0xFFE) : (a + 4).toNat = a.toNat + 4 := by
  have four : (4 : Word).toNat = 4 := rfl
  rw [BitVec.toNat_add, four]
  omega

/-- The exact sum of an address and a byte (R107). -/
theorem zextAddr_add_zextByte_toNat (nnn : Addr12) (b : Byte) :
    (zextAddr nnn + zextByte b).toNat = nnn.toNat + b.toNat := by
  have := nnn.isLt
  have := b.isLt
  rw [BitVec.toNat_add, zextAddr_toNat, zextByte_toNat]
  omega

/-- Where an instruction goes is at most 0x10FE (R24). -/
theorem PcTarget.toNat_le {s : State} {p : Word} (target : PcTarget s p) (in_memory : s.pc.toNat ≤ 0xFFE)
    (stackBound : ∀ k : Fin 16, (s.stack[k]).toNat ≤ 0x1000) : p.toNat ≤ 0x10FE := by
  cases target with
  | stays => omega
  | advances => rw [pc_add_two_toNat in_memory]; omega
  | skips => rw [pc_add_four_toNat in_memory]; omega
  | jumps nnn => have := nnn.isLt; rw [zextAddr_toNat]; omega
  | jumpsIndexed nnn b => have := nnn.isLt; have := b.isLt; rw [zextAddr_add_zextByte_toNat]; omega
  | returns k => have := stackBound k; omega

/-- Every change an instruction can make keeps the invariant. -/
theorem Change.inv {i : Instr} {s t : State} (change : Change i s t) (target : PcTarget s t.pc) (inv : s.Inv)
    (running : s.running) (quiet : s.draw = false) (in_memory : s.pc.toNat ≤ 0xFFE) : t.Inv := by
  have pcBound := target.toNat_le in_memory inv.stackBound
  cases change with
  | memory _ _ _ canonical => exact inv.of_no_fault running.1 rfl (canonical inv.memory) pcBound inv.stackBound
  | stack _ entries _ _ _ pushed =>
    refine inv.of_no_fault running.1 rfl inv.memory pcBound fun k => ?_
    rcases pushed k with old | new
    · rw [old]
      exact inv.stackBound k
    · rw [new, pc_add_two_toNat in_memory]
      omega
  | dataFault reader _ =>
    have info : 0x1000 ≤ (dataFaultInfo s.i).toNat := by
      rw [dataFaultInfo_toNat]
      exact Nat.le_max_right _ _
    exact ⟨inv.memory, pcBound, inv.stackBound, ⟨rfl, in_memory, info, i, decode_encode i, reader⟩,
      fun _ => ⟨running.2, quiet⟩⟩
  | keyFault x reader above =>
    have tests : i.testsKey = true := by rcases reader with rfl | rfl <;> rfl
    have byte := (s.readV x).isLt
    have record : FaultStatus.ok ⟨.keyIndex, s.pc, encode i, zextByte (s.readV x)⟩ s.pc := by
      refine ⟨rfl, in_memory, ?_, ?_, i, decode_encode i, tests⟩
      · rw [zextByte_toNat]; omega
      · rw [zextByte_toNat]; omega
    exact ⟨inv.memory, pcBound, inv.stackBound, record, fun _ => ⟨running.2, quiet⟩⟩
  | _ => exact inv.of_no_fault running.1 rfl inv.memory pcBound inv.stackBound

/-! ### Over a step -/

/-- The beginning of a step keeps the invariant. -/
theorem State.Inv.beginStep {s : State} (inv : s.Inv) : s.beginStep.Inv := by
  obtain ⟨_, _, _, begun⟩ := s.beginStep_eq
  rw [begun]
  exact ⟨inv.memory, inv.pcBound, inv.stackBound, inv.faultRecord, fun faulted => ⟨(inv.faultQuiet faulted).1, rfl⟩⟩

/-- So does the countdown. -/
theorem State.Inv.beginInstr {s : State} (inv : s.Inv) : s.beginInstr.Inv :=
  ⟨inv.beginStep.memory, inv.beginStep.pcBound, inv.beginStep.stackBound, inv.beginStep.faultRecord,
    inv.beginStep.faultQuiet⟩

/-- The beginning of a step leaves a running core running. -/
theorem State.running.beginInstr {s : State} (running : s.running) : s.beginInstr.running := by
  simpa [State.running] using running

/-- Settles O56: by the cases of the step. -/
theorem everyStepKeepsInvariant : Obligations.EveryStepKeepsInvariant := by
  intro s t inv answer
  cases case_of_step answer with
  | faulted | idle => exact inv.beginStep
  | resolves no_fault _ b =>
    exact inv.beginStep.of_no_fault (by simpa using no_fault) rfl inv.beginStep.memory inv.beginStep.pcBound
      inv.beginStep.stackBound
  | fetchFault running beyond =>
    have record : FaultStatus.ok ⟨.fetchOob, s.beginInstr.pc, 0, s.pc⟩ s.beginInstr.pc := by
      simpa [FaultStatus.ok] using beyond
    exact ⟨inv.beginInstr.memory, inv.beginInstr.pcBound, inv.beginInstr.stackBound, record,
      fun _ => ⟨running.beginInstr.2, rfl⟩⟩
  | unknown running in_memory =>
    have in_memory : s.beginInstr.pc.toNat ≤ 0xFFE := by simpa using in_memory
    exact inv.beginInstr.of_no_fault running.beginInstr.1 rfl inv.beginInstr.memory
      (PcTarget.advances.toNat_le in_memory inv.beginInstr.stackBound) inv.beginInstr.stackBound
  | instr i _ executes answer =>
    obtain ⟨running, in_memory, -⟩ := executes
    obtain ⟨change, target⟩ := change_of_exec answer
    exact change.inv target inv.beginInstr running.beginInstr rfl (by simpa using in_memory)

end Sys2Proof.Machine
end

section
/-! Jumps, calls and returns (spec/41_flow.md R100-R109): what each leaves in PC and on the stack, the return after its
call, and the stop on a self-jump (70_reset_and_hazards.md R205). -/

namespace Sys2Proof.Machine

/-- Settles O20: PC takes nnn zero-extended, which is the same number. -/
theorem jumpSetsPc : Obligations.JumpSetsPc := fun nnn s =>
  ⟨fitsRow (.jp nnn), _, exec_jp nnn s, zextAddr_toNat nnn, s.onlyRegs_jumpTo _⟩

/-- Settles O21: the sum of a 12-bit and an 8-bit number fits PC. -/
theorem jumpV0AddsExactly : Obligations.JumpV0AddsExactly := fun nnn s =>
  ⟨_, exec_jpV0 nnn s, zextAddr_add_zextByte_toNat nnn (s.readV 0), s.onlyRegs_jumpTo _⟩

/-! ### Calls and returns -/

/-- Settles O22: the push writes the entry at the old SP, or sets stack_event on a full stack. -/
theorem callPushesReturnAddress : Obligations.CallPushesReturnAddress := by
  intro nnn s
  refine ⟨fun room => ?_, fun full => ?_⟩
  · refine ⟨_, exec_call_of_lt nnn room, zextAddr_toNat nnn, ?_⟩
    rw [State.push_of_lt _ room]
    refine ⟨rfl, by simp, fun k other => ?_, rfl, OnlyStack.of_stack s _ _ s.stackEvent _⟩
    exact Vector.getElem_set_ne room k.isLt other.symm
  · refine ⟨_, exec_call_full nnn full, ?_⟩
    rw [State.push_full _ full]
    exact ⟨rfl, rfl, rfl, rfl, OnlyStack.of_stack s s.sp s.stack true _⟩

/-- Settles O23: the pop lowers SP alone, or sets stack_event on an empty stack. -/
theorem returnPopsAddress : Obligations.ReturnPopsAddress := by
  intro s
  refine ⟨fun some_entry => ?_, fun empty => ?_⟩
  · refine ⟨_, exec_ret_of_pos some_entry, ?_⟩
    rw [State.pop_of_pos some_entry]
    exact ⟨Nat.sub_add_cancel some_entry, rfl, rfl, rfl, OnlyStack.of_stack s _ s.stack s.stackEvent _⟩
  · refine ⟨_, exec_ret_empty empty, ?_⟩
    rw [State.pop_empty empty]
    exact ⟨rfl, rfl, rfl, rfl, OnlyStack.of_stack s s.sp s.stack true _⟩

/-- Settles O24: the entry under the SP that the call left is the one it pushed. -/
theorem returnComesBackAfterTheCall : Obligations.ReturnComesBackAfterTheCall := by
  intro nnn s t room call u same_sp same_stack
  obtain ⟨t', answer, -, sp, pushed, -⟩ := (callPushesReturnAddress nnn s).1 room
  obtain rfl : t' = t := Host.Outcome.next.inj (answer.symm.trans call)
  have under : u.sp.val = s.sp.val + 1 := by rw [same_sp, sp]
  obtain ⟨w, ret, sp', pc, -⟩ := (returnPopsAddress u).1 (by omega)
  refine ⟨w, ret, ?_, Fin.ext (by omega)⟩
  simp only [pc, same_stack, under, Nat.add_sub_cancel, pushed]

/-! ### The stop -/

/-- Settles O19: the jump goes to its own address, where the same two bytes lie in the same memory. -/
theorem selfJumpStaysStopped : Obligations.SelfJumpStaysStopped := by
  rintro s ⟨nnn, executes, self⟩
  have target : zextAddr nnn = s.pc := BitVec.eq_of_toNat_eq ((zextAddr_toNat nnn).trans self)
  have answer : step s = .next (s.beginInstr.jumpTo s.pc) := by rw [step_executes executes, exec_jp, target]
  have stopped : (s.beginInstr.jumpTo s.pc).stopped :=
    ⟨nnn, by simpa [State.executes, State.running] using executes, self⟩
  refine ⟨_, answer, stopped, rfl, rfl, by simp, fun r _ => by simp, ?index, ?stack, fun a => by simp, ?gate, ?fault⟩
  case index | stack | gate | fault => simp [SameIndex, SameStack, SameGate, SameFault]

end Sys2Proof.Machine
end

section
/-! The subtractions, the shifts and the random byte (spec/42_alu.md R124-R128). The four that write VF first (R116)
share one lemma on what the two writes leave. -/

namespace Sys2Proof.Machine

/-! ### Numbers of flags and bytes -/

theorem byte_sub_toNat (a b : Byte) : (a - b).toNat = (a.toNat + 256 - b.toNat) % 256 := by
  have := b.isLt
  rw [BitVec.toNat_sub]
  omega

/-- The flag of a subtraction is the number that is 1 on greater and 0 on not greater (R115). -/
theorem greater_toNat {a b : Byte} {f : Nat} (gt : b.toNat < a.toNat → f = 1) (le : a.toNat ≤ b.toNat → f = 0) :
    (greater a b).toNat = f := by
  rcases Nat.lt_or_ge b.toNat a.toNat with h | h
  · simp [greater, flagByte, h, gt h]
  · simp [greater, flagByte, Nat.not_lt.mpr h, le h]

theorem lowBit_toNat (a : Byte) : (lowBit a).toNat = a.toNat % 2 := by
  rw [lowBit, flagByte, BitVec.getLsbD, Nat.testBit_zero]
  rcases Nat.mod_two_eq_zero_or_one a.toNat with h | h <;> simp [h]

theorem highBit_toNat (a : Byte) : (highBit a).toNat = a.toNat / 128 := by
  have := a.isLt
  rw [highBit, flagByte, BitVec.getLsbD, Nat.testBit_eq_decide_div_mod_eq]
  split
  · next h => simp at h ⊢; omega
  · next h => simp at h ⊢; omega

theorem shiftRight_one_toNat (a : Byte) : (a >>> 1).toNat = a.toNat / 2 := by
  rw [BitVec.toNat_ushiftRight, Nat.shiftRight_eq_div_pow, pow_one]

theorem shiftLeft_one_toNat (a : Byte) : (a <<< 1).toNat = 2 * a.toNat % 256 := by
  rw [BitVec.toNat_shiftLeft, Nat.shiftLeft_eq, pow_one, Nat.mul_comm]

/-! ### VF first, then V[x] -/

/-- An instruction that writes a flag to VF and then a result to V[x], in the source's order (R116). -/
theorem flag_of_exec_eq {i : Instr} {s : State} {x : Reg} {flag : Byte} {result : State → Byte}
    (answer : exec i s = .next (s.flagThenResult Config.vfOrder x flag result).advance) :
    ∃ t, exec i s = .next t ∧ t.pc = s.pc + 2 ∧ OnlyRegs [x, Reg.vf] s t ∧
      t.readV x = result (s.writeV Reg.vf flag) ∧ (x ≠ Reg.vf → t.readV Reg.vf = flag) := by
  refine ⟨_, answer, by simp, (s.onlyRegs_flagThenResult x flag result).advance, ?_, fun hx => ?_⟩
  · simp [State.readV_flagThenResult]
  · simp [State.readV_flagThenResult, hx.symm]

/-- Settles O30: V[x] is the difference of the two registers read after VF took the flag. -/
theorem subWritesFlagThenDifference : Obligations.SubWritesFlagThenDifference := by
  intro x y s f gt le
  obtain ⟨t, answer, pc, frame, difference, flag⟩ := flag_of_exec_eq (exec_sub x y s)
  have hf := greater_toNat gt le
  refine ⟨t, answer, pc, frame, fun hx => by rw [flag hx, hf], fun hx hy => ?_, fun hx hy => ?_, fun hx hy => ?_,
    fun hx hy => ?_⟩
  · rw [difference, byte_sub_toNat, State.readV_writeV_ne _ _ hx, State.readV_writeV_ne _ _ hy]
  · subst hy
    rw [difference, byte_sub_toNat, State.readV_writeV_ne _ _ hx, State.readV_writeV_self, hf]
  · subst hx
    rw [difference, byte_sub_toNat, State.readV_writeV_self, State.readV_writeV_ne _ _ hy, hf]
  · subst hx hy
    exact difference.trans (BitVec.sub_self _)

/-- Settles O31: the same with the operands exchanged. -/
theorem subnWritesFlagThenDifference : Obligations.SubnWritesFlagThenDifference := by
  intro x y s f gt le
  obtain ⟨t, answer, pc, frame, difference, flag⟩ := flag_of_exec_eq (exec_subn x y s)
  have hf := greater_toNat gt le
  refine ⟨t, answer, pc, frame, fun hx => by rw [flag hx, hf], fun hx hy => ?_, fun hx hy => ?_, fun hx hy => ?_,
    fun hx hy => ?_⟩
  · rw [difference, byte_sub_toNat, State.readV_writeV_ne _ _ hy, State.readV_writeV_ne _ _ hx]
  · subst hy
    rw [difference, byte_sub_toNat, State.readV_writeV_self, State.readV_writeV_ne _ _ hx, hf]
  · subst hx
    rw [difference, byte_sub_toNat, State.readV_writeV_ne _ _ hy, State.readV_writeV_self, hf]
  · subst hx hy
    exact difference.trans (BitVec.sub_self _)

/-- Settles O32: where x is F, the register shifted is the flag just written. -/
theorem shiftsMoveOneBitIntoFlag : Obligations.ShiftsMoveOneBitIntoFlag := by
  intro x y s
  obtain ⟨t, shr, pc, frame, shifted, flag⟩ := flag_of_exec_eq (exec_shr x y s)
  obtain ⟨u, shl, pc', frame', shifted', flag'⟩ := flag_of_exec_eq (exec_shl x y s)
  refine ⟨⟨t, shr, pc, frame, fun hx => ⟨?_, ?_⟩, fun hx => ?_⟩, ⟨u, shl, pc', frame', fun hx => ⟨?_, ?_⟩, fun hx => ?_⟩⟩
  · rw [flag hx, lowBit_toNat]
  · rw [shifted, State.readV_writeV_ne _ _ hx, shiftRight_one_toNat]
  · subst hx
    apply BitVec.eq_of_toNat_eq
    rw [shifted, State.readV_writeV_self, shiftRight_one_toNat, lowBit_toNat]
    simp
  · rw [flag' hx, highBit_toNat]
  · rw [shifted', State.readV_writeV_ne _ _ hx, shiftLeft_one_toNat]
  · subst hx
    have := (s.readV Reg.vf).isLt
    rw [shifted', State.readV_writeV_self, shiftLeft_one_toNat, highBit_toNat]
    omega

/-- Settles O33: the bits of a conjunction of two bytes. -/
theorem randomByteIsMasked : Obligations.RandomByteIsMasked := fun x kk s =>
  setBits_of_exec_eq (exec_rnd x kk s) fun _ => BitVec.getLsbD_and

end Sys2Proof.Machine
end

section
/-! Key tests, timers and the gate (spec/45_keys_timers.md R160-R165), at exec and, where the countdown or the gate
makes a difference, over the step. -/

namespace Sys2Proof.Machine

/-- An instruction that answers withKey on a number above 15 enters KEY_INDEX (R175). -/
theorem keyFault_of_exec_eq {i : Instr} {s : State} {x : Reg} {c : Bool → Bool}
    (answer : exec i s = .next (s.withKey i x c)) (above : 15 < (s.readV x).toNat) :
    ∃ t info, exec i s = .next t ∧ EntersFault .keyIndex (encode i) info s t ∧ info.toNat = (s.readV x).toNat := by
  rw [State.withKey_none above] at answer
  exact ⟨_, _, answer, s.entersFault_raise _ _ _, zextByte_toNat _⟩

/-- Settles O46: on a number that names a key each instruction is skipIf of the key's level or of its opposite. -/
theorem skipOnKeyLevel : Obligations.SkipOnKeyLevel := by
  intro x s
  refine ⟨fun key => ?_, fun above =>
    ⟨keyFault_of_exec_eq (exec_skp x s) above, keyFault_of_exec_eq (exec_sknp x s) above⟩⟩
  have skp := exec_skp x s
  have sknp := exec_sknp x s
  rw [State.withKey_key key] at skp sknp
  exact ⟨skip_of_exec_eq skp id id, skip_of_exec_eq sknp (Bool.not_eq_true' _).mpr (Bool.not_eq_false' _).mpr⟩

/-- Settles O47: over a step, the timer that is not set is as the countdown left it. -/
theorem setTimersFromRegister : Obligations.SetTimersFromRegister := by
  intro x s
  refine ⟨fitsRow (.ldDTVx x), fitsRow (.ldSTVx x),
    ⟨_, exec_ldDTVx x s, rfl, rfl, rfl, OnlyTimers.of_timers s _ s.st _⟩,
    ⟨_, exec_ldSTVx x s, rfl, rfl, rfl, OnlyTimers.of_timers s s.dt _ _⟩, fun executes => ?_, fun executes => ?_⟩
  · refine ⟨_, (step_executes executes).trans (exec_ldDTVx x _), ?_, ?_⟩
    · simp
    · simp [countdown_toNat]
  · refine ⟨_, (step_executes executes).trans (exec_ldSTVx x _), ?_, ?_⟩
    · simp
    · simp [countdown_toNat]

/-- Settles O48: V[x] takes DT as the instruction finds it, which over a step is after the countdown. -/
theorem readDelayTimerAfterCountdown : Obligations.ReadDelayTimerAfterCountdown := by
  intro x s
  refine ⟨set_of_exec_eq (exec_ldVxDT x s), fun executes => ?_⟩
  obtain ⟨t, answer, value, -⟩ := set_of_exec_eq (exec_ldVxDT x s.beginInstr)
  exact ⟨t, (step_executes executes).trans answer, by rw [value, State.beginInstr_dt, countdown_toNat]⟩

/-- Settles O49: arming the gate writes no register, and the poll belongs to the next step. -/
theorem waitForKeyArmsTheGate : Obligations.WaitForKeyArmsTheGate := by
  intro x s
  refine ⟨⟨_, exec_ldVxK x s, rfl, rfl, rfl, OnlyGate.of_gate s true x _⟩, fun executes => ?_⟩
  exact ⟨_, (step_executes executes).trans (exec_ldVxK x _), rfl, rfl, fun r _ => s.readV_beginInstr r⟩

end Sys2Proof.Machine
end

section
/-! The index register and memory (spec/43_index_memory.md R141-R145, 20_memory.md R49-R58): what is stored is read back,
by the next load and by the next fetch; and the load of an image (70_reset_and_hazards.md R195). -/

namespace Sys2Proof.Machine

/-- Settles O35: the sum wraps at 16 bits; five times a byte does not reach them. -/
theorem indexArithmetic : Obligations.IndexArithmetic := by
  intro x s
  obtain ⟨t, add, sum, pc, frame⟩ := setIndex_of_exec_eq (exec_addIVx x s)
  obtain ⟨u, glyph, product, pc', frame'⟩ := setIndex_of_exec_eq (exec_ldFVx x s)
  refine ⟨⟨t, add, by rw [sum, BitVec.toNat_add, zextByte_toNat], pc, frame⟩, ⟨u, glyph, ?_, pc', frame'⟩⟩
  have := (s.readV x).isLt
  have five : (5 : Word).toNat = 5 := rfl
  rw [product, BitVec.toNat_mul, zextByte_toNat, five]
  omega

/-! ### Stores -/

/-- Settles O36: the three bytes written are the digits, each below 256. -/
theorem storeBcdWritesThreeDigits : Obligations.StoreBcdWritesThreeDigits := by
  intro x s canonical inside
  have digit (k : Nat) (hk : k < 3) := State.readMem_writeBytes_inside canonical (bcdDigits_fit (s.readV x) inside) k hk
  have outside : SameMemoryBut s.i.toNat 3 s (s.writeBytes s.i.toNat (bcdDigits (s.readV x))) :=
    fun a ha => s.readMem_writeBytes_outside _ (bcdDigits (s.readV x)) ha
  have byte := (s.readV x).isLt
  refine ⟨_, exec_ldBVx_inside inside, rfl, OnlyMemory.of_memory _ outside, ?_, ?_, ?_⟩
  · exact (congrArg BitVec.toNat (digit 0 (by omega))).trans (Nat.mod_eq_of_lt (by omega))
  · exact (congrArg BitVec.toNat (digit 1 (by omega))).trans (Nat.mod_eq_of_lt (by omega))
  · exact (congrArg BitVec.toNat (digit 2 (by omega))).trans (Nat.mod_eq_of_lt (by omega))

/-- A stored register is read back from its address. -/
theorem readMem_storeRegs {x k : Reg} {s : State} (canonical : s.mem.wf = true) (inside : s.i.toNat + x.val ≤ 0xFFF)
    (hk : k ≤ x) : (s.storeRegs (regsUpTo x)).readMem (s.i.toNat + k.val) = s.readV k :=
  State.readMem_storeRegs_inside canonical (fun _ => store_address_lt inside) k ((mem_regsUpTo x k).mpr hk)

/-- Storing the registers up to x touches the x + 1 bytes from I. -/
theorem State.onlyMemory_storeRegs (s : State) (x : Reg) :
    OnlyMemory s.i.toNat (x.val + 1) s (s.storeRegs (regsUpTo x)).advance := by
  have outside : SameMemoryBut s.i.toNat (x.val + 1) s (s.storeRegs (regsUpTo x)) := by
    intro a ha
    refine s.readMem_storeRegs_outside _ fun r hr => ?_
    rw [mem_regsUpTo, Fin.le_def] at hr
    rw [State.dataAddr]
    omega
  obtain ⟨m, stored⟩ := s.storeRegs_eq (regsUpTo x)
  rw [stored] at outside ⊢
  exact OnlyMemory.of_memory _ outside

/-- Settles O37: each register up to x is found at its own address, and no other byte is stored to. -/
theorem storeRegistersWritesRange : Obligations.StoreRegistersWritesRange := fun x s canonical inside =>
  ⟨_, exec_ldMemVx_inside inside, by simp, s.onlyMemory_storeRegs x, fun _ => readMem_storeRegs canonical inside⟩

/-! ### Loads -/

/-- Settles O38: the registers loaded are those up to x, and the frame of the load is theirs. -/
theorem loadRegistersReadsRange : Obligations.LoadRegistersReadsRange := by
  intro x s inside
  have frame := (s.onlyRegs_loadRegs (regsUpTo x)).advance
  refine ⟨_, exec_ldVxMem_inside inside, by simp, fun k hk => ?_, fun k hk => ?_, frame.index, frame.stack, frame.timers,
    frame.memory, frame.screen, frame.gate, frame.fault, frame.inputs⟩
  · rw [State.readV_advance, State.readV_loadRegs, if_pos ((mem_regsUpTo x k).mpr hk), State.dataAddr]
  · exact frame.regs k fun h => absurd hk (not_lt.mpr ((mem_regsUpTo x k).mp h))

/-- Settles O39: the load reads the bytes that the store wrote, at the same I. -/
theorem storeThenLoadRestoresRegisters : Obligations.StoreThenLoadRestoresRegisters := by
  intro x s canonical inside
  obtain ⟨t, store, -, frame, stored⟩ := storeRegistersWritesRange x s canonical inside
  refine ⟨t, store, fun u same_index same_bytes => ?_⟩
  have index : u.i = s.i := same_index.trans frame.index
  obtain ⟨w, load, -, loaded, -, index', -⟩ := loadRegistersReadsRange x u (by rwa [index])
  refine ⟨w, load, index'.trans index, fun k hk => ?_⟩
  rw [loaded k hk, index, same_bytes k hk, stored k hk]

/-! ### Code that is stored and then fetched -/

/-- Settles O40: the store leaves the core running at PC + 2, where it has put the two bytes. -/
theorem nextFetchSeesStoredCode : Obligations.NextFetchSeesStoredCode := by
  intro x k s i canonical inside executes hk over_next decodes
  have canonical : s.beginInstr.mem.wf = true := by simpa using canonical
  obtain ⟨t, store, pc, frame, stored⟩ :=
    storeRegistersWritesRange x s.beginInstr canonical (by simpa using inside)
  have answer := (step_executes executes).trans store
  obtain ⟨running, in_memory, -⟩ := executes
  have running : t.running := ⟨frame.fault ▸ running.beginInstr.1, frame.gate.1.trans running.beginInstr.2⟩
  have pc : t.pc.toNat = s.i.toNat + k.val := by
    rw [pc, State.beginInstr_pc, pc_add_two_toNat in_memory, over_next]
  have high : t.readMem t.pc.toNat = s.readV k := by
    rw [pc]
    simpa using stored k (Fin.le_def.mpr (by omega))
  have low : t.readMem (t.pc.toNat + 1) = s.readV ⟨k.val + 1, by omega⟩ := by
    rw [pc, Nat.add_assoc]
    simpa using stored ⟨k.val + 1, by omega⟩ (Fin.le_def.mpr hk)
  have executes' : t.executes i := ⟨running, by omega, by rw [high, low]; exact decodes⟩
  exact ⟨t, answer, executes', step_executes executes'⟩

/-- Settles O41: the four instructions check their range before anything else. -/
theorem dataBeyondMemoryFaults : Obligations.DataBeyondMemoryFaults := fun _ s some_byte beyond =>
  ⟨_, _, exec_data_beyond some_byte beyond, s.entersFault_raise _ _ _, dataFaultInfo_toNat s.i⟩

/-! ### The load of an image -/

/-- What the load writes: the image up to the end of memory, from ENTRY on (R195, R196). -/
theorem readMem_boot (image : List Byte) (a : Nat) :
    (State.boot image).readMem a = (State.reset.mem.writeBytes 0x200 (image.take 3584)).read a := rfl

/-- Settles O54: the part of the image that lies in memory is written from 0x200 on and read back. -/
theorem loadCopiesImageAndTruncates : Obligations.LoadCopiesImageAndTruncates := by
  intro image
  have canonical : State.reset.mem.wf = true := rfl
  have length := List.length_take (i := 3584) (l := image)
  have fits : 0x200 + (image.take 3584).length ≤ Config.memSize := by rw [Config.memSize]; omega
  refine ⟨fun k hk in_memory => ?_, fun a outside => ?_, Memory.loadImage_wf image canonical, rfl⟩
  · rw [readMem_boot, Memory.read_writeBytes_inside canonical fits k (by omega), List.getElem_take]
  · rw [readMem_boot, Memory.read_writeBytes_outside _ _ _ (by omega)]
    rfl

end Sys2Proof.Machine
end

section
/-! Drawing a sprite (spec/44_display.md R150, R152) in closed form. Bit by bit, row by row, a drawing inverts a set of
pixels; the bits of one sprite land on different pixels, so the sets of its bits and rows never meet and add up to the
pixels that the sprite covers. -/

namespace Sys2Proof.Machine

/-! ### Drawings that invert a set of pixels -/

/-- The drawing q is p with the pixels of A inverted, and a collision is recorded exactly where A meets a lit pixel. -/
structure Plot.Inverts (p q : Plot) (A : Fin 32 → Fin 64 → Prop) : Prop where
  pixel_of_mem : ∀ row col, A row col → q.fb.pixel row col = !(p.fb.pixel row col)
  pixel_of_not_mem : ∀ row col, ¬ A row col → q.fb.pixel row col = p.fb.pixel row col
  hit : q.hit = true ↔ p.hit = true ∨ ∃ row col, A row col ∧ p.fb.pixel row col = true

/-- Nothing drawn inverts no pixel. -/
theorem Plot.Inverts.none (p : Plot) : p.Inverts p fun _ _ => False where
  pixel_of_mem := fun _ _ h => h.elim
  pixel_of_not_mem := fun _ _ _ => rfl
  hit := by simp

/-- One sprite bit inverts its pixel where the bit is 1. -/
theorem Plot.inverts_bit (p : Plot) (row : Fin 32) (col : Fin 64) (b : Bool) :
    p.Inverts (p.bit row col b) fun r c => r = row ∧ c = col ∧ b = true where
  pixel_of_mem := by
    rintro r c ⟨rfl, rfl, rfl⟩
    simp [Plot.pixel_bit]
  pixel_of_not_mem := by
    intro r c other
    rw [Plot.pixel_bit]
    by_cases here : r = row ∧ c = col
    · have zero : b = false := by simpa [here] using other
      simp [zero]
    · simp [here]
  hit := by
    rw [Plot.hit_bit, Bool.or_eq_true, Bool.and_eq_true]
    refine or_congr_right ⟨fun ⟨one, lit⟩ => ⟨row, col, ⟨rfl, rfl, one⟩, lit⟩, ?_⟩
    rintro ⟨r, c, ⟨rfl, rfl, one⟩, lit⟩
    exact ⟨one, lit⟩

/-- Two drawings one after the other, on pixels that never meet, invert the pixels of both. -/
theorem Plot.Inverts.trans {p q u : Plot} {A B C : Fin 32 → Fin 64 → Prop} (first : p.Inverts q A)
    (second : q.Inverts u B) (apart : ∀ row col, A row col → ¬ B row col)
    (both : ∀ row col, C row col ↔ A row col ∨ B row col) : p.Inverts u C where
  pixel_of_mem := by
    intro row col h
    rcases (both row col).mp h with inA | inB
    · rw [second.pixel_of_not_mem row col (apart row col inA), first.pixel_of_mem row col inA]
    · rw [second.pixel_of_mem row col inB, first.pixel_of_not_mem row col fun inA => apart row col inA inB]
  pixel_of_not_mem := by
    intro row col h
    obtain ⟨notA, notB⟩ := not_or.mp fun inAB => h ((both row col).mpr inAB)
    rw [second.pixel_of_not_mem row col notB, first.pixel_of_not_mem row col notA]
  hit := by
    rw [second.hit, first.hit, or_assoc]
    refine or_congr_right ⟨?_, ?_⟩
    · rintro (⟨row, col, inA, lit⟩ | ⟨row, col, inB, lit⟩)
      · exact ⟨row, col, (both row col).mpr (.inl inA), lit⟩
      · rw [first.pixel_of_not_mem row col fun inA => apart row col inA inB] at lit
        exact ⟨row, col, (both row col).mpr (.inr inB), lit⟩
    · rintro ⟨row, col, h, lit⟩
      rcases (both row col).mp h with inA | inB
      · exact .inl ⟨row, col, inA, lit⟩
      · refine .inr ⟨row, col, inB, ?_⟩
        rw [first.pixel_of_not_mem row col fun inA => apart row col inA inB, lit]

/-! ### One row of a sprite -/

/-- Some 1 bit among the first n of a sprite byte lands on this column. -/
def bitsCover (order : Config.SpriteBitOrder) (cx b : Byte) (n : Nat) (col : Fin 64) : Prop :=
  ∃ j, j < n ∧ col = spriteCol cx j ∧ spriteBit order b j = true

/-- Columns less than a screen apart are different columns (R150). -/
theorem spriteCol_injective {cx : Byte} {j k : Nat} (hj : j < 8) (hk : k < 8) (h : spriteCol cx j = spriteCol cx k) :
    j = k := by
  have same : (cx.toNat + j) % 64 = (cx.toNat + k) % 64 := congrArg Fin.val h
  omega

/-- The first n bits of a byte invert the pixels that they cover, by induction on n. -/
theorem Plot.inverts_bits (p : Plot) (order : Config.SpriteBitOrder) (row : Fin 32) (cx b : Byte) (n : Nat)
    (hn : n ≤ 8) :
    p.Inverts ((List.range n).foldl (fun q j => q.bit row (spriteCol cx j) (spriteBit order b j)) p)
      fun r c => r = row ∧ bitsCover order cx b n c := by
  induction n with
  | zero => simpa [bitsCover] using Plot.Inverts.none p
  | succ n ih =>
    rw [List.range_succ, List.foldl_append]
    refine (ih (by omega)).trans (Plot.inverts_bit _ row (spriteCol cx n) (spriteBit order b n)) ?apart ?both
    case apart =>
      rintro r c ⟨-, j, hj, rfl, -⟩ ⟨-, same, -⟩
      have := spriteCol_injective (by omega) (by omega) same
      omega
    case both =>
      intro r c
      constructor
      · rintro ⟨rfl, j, hj, rfl, one⟩
        rcases Nat.lt_succ_iff_lt_or_eq.mp hj with earlier | rfl
        · exact .inl ⟨rfl, j, earlier, rfl, one⟩
        · exact .inr ⟨rfl, rfl, one⟩
      · rintro (⟨rfl, j, hj, rfl, one⟩ | ⟨rfl, rfl, one⟩)
        · exact ⟨rfl, j, Nat.lt_succ_of_lt hj, rfl, one⟩
        · exact ⟨rfl, n, Nat.lt_succ_self n, rfl, one⟩

theorem Plot.inverts_byte (p : Plot) (order : Config.SpriteBitOrder) (row : Fin 32) (cx b : Byte) :
    p.Inverts (p.byte order row cx b) fun r c => r = row ∧ bitsCover order cx b 8 c :=
  p.inverts_bits order row cx b 8 (Nat.le_refl 8)

/-! ### A whole sprite -/

/-- Some 1 bit of the sprite bytes, the first of them r rows under cy, lands on this pixel. -/
def rowsCover (order : Config.SpriteBitOrder) (cx cy : Byte) (r : Nat) (bytes : List Byte) (row : Fin 32)
    (col : Fin 64) : Prop :=
  ∃ k, ∃ h : k < bytes.length, row = spriteRow cy (r + k) ∧ bitsCover order cx bytes[k] 8 col

/-- Rows less than a screen apart are different rows (R150). -/
theorem spriteRow_injective {cy : Byte} {j k : Nat} (hj : j < 32) (hk : k < 32)
    (h : spriteRow cy j = spriteRow cy k) : j = k := by
  have same : (cy.toNat + j) % 32 = (cy.toNat + k) % 32 := congrArg Fin.val h
  omega

/-- The rows of a sprite of at most 32 invert the pixels that they cover, by induction on the bytes. -/
theorem Plot.inverts_rows (p : Plot) (order : Config.SpriteBitOrder) (cx cy : Byte) (r : Nat) (bytes : List Byte)
    (height : r + bytes.length ≤ 32) :
    p.Inverts (p.rows order cx cy r bytes) (rowsCover order cx cy r bytes) := by
  induction bytes generalizing p r with
  | nil =>
    have nothing : rowsCover order cx cy r [] = fun _ _ => False := by
      funext row col
      simp [rowsCover]
    rw [nothing]
    exact Plot.Inverts.none p
  | cons b bs ih =>
    rw [List.length_cons] at height
    refine (p.inverts_byte order (spriteRow cy r) cx b).trans (ih _ (r + 1) (by omega)) ?apart ?both
    case apart =>
      rintro row col ⟨rfl, -⟩ ⟨k, hk, same, -⟩
      have := spriteRow_injective (by omega) (by omega) same
      omega
    case both =>
      intro row col
      constructor
      · rintro ⟨k, hk, here, bits⟩
        cases k with
        | zero => exact .inl ⟨here, bits⟩
        | succ k =>
          refine .inr ⟨k, Nat.lt_of_succ_lt_succ hk, ?_, bits⟩
          rw [here, Nat.add_assoc, Nat.add_comm 1 k]
      · rintro (⟨here, bits⟩ | ⟨k, hk, here, bits⟩)
        · exact ⟨0, Nat.succ_pos _, here, bits⟩
        · refine ⟨k + 1, Nat.succ_lt_succ hk, ?_, bits⟩
          rw [here, Nat.add_assoc, Nat.add_comm 1 k]

/-- The pixels that the sprite's bytes cover are those of the statement's own words. -/
theorem rowsCover_readBytes (s : State) (x y : Reg) (n : Nibble) :
    rowsCover Config.spriteBitOrder (s.readV x) (s.readV y) 0 (s.readBytes s.dataAddr n.toNat) =
      s.spriteCovers x y n := by
  funext row col
  apply propext
  constructor
  · rintro ⟨r, hr, rfl, j, hj, rfl, one⟩
    have hr : r < n.toNat := by simpa [State.readBytes] using hr
    refine ⟨r, j, hr, hj, by simp [spriteRow], by simp [spriteCol], ?_⟩
    simpa [State.readBytes, State.dataAddr, spriteBit, Config.spriteBitOrder] using one
  · rintro ⟨r, j, hr, hj, here, there, one⟩
    refine ⟨r, by simpa [State.readBytes] using hr, Fin.ext (by simpa [spriteRow] using here), j, hj,
      Fin.ext (by simpa [spriteCol] using there), ?_⟩
    simpa [State.readBytes, State.dataAddr, spriteBit, Config.spriteBitOrder] using one

/-- A Dxyn's drawing inverts the pixels that its sprite covers. -/
theorem State.spritePlot_inverts (s : State) (x y : Reg) (n : Nibble) :
    (Plot.mk s.fb false).Inverts (s.spritePlot x y n) (s.spriteCovers x y n) := by
  have nibble := n.isLt
  have height : 0 + (s.readBytes s.dataAddr n.toNat).length ≤ 32 := by
    simp [State.readBytes]
    omega
  rw [← rowsCover_readBytes]
  exact (Plot.mk s.fb false).inverts_rows _ _ _ 0 _ height

/-- VF after a Dxyn tells whether a 1 bit of the sprite met a lit pixel. -/
theorem State.spritePlot_hit (s : State) (x y : Reg) (n : Nibble) :
    (s.spritePlot x y n).hit = true ↔ ∃ row col, s.spriteCovers x y n row col ∧ s.fb.pixel row col = true := by
  simpa using (s.spritePlot_inverts x y n).hit

/-! ### The statements on Dxyn -/

/-- A Dxyn touches the screen and VF alone. -/
theorem State.onlyScreen_drawSprite (s : State) (x y : Reg) (n : Nibble) :
    OnlyScreen [Reg.vf] s (s.drawSprite x y n) where
  regs := fun _ hr => s.readV_writeV_ne _ (List.ne_of_not_mem_cons hr)
  index := rfl
  stack := ⟨rfl, rfl, rfl⟩
  timers := ⟨rfl, rfl⟩
  memory := fun _ => rfl
  gate := ⟨rfl, rfl⟩
  fault := rfl
  inputs := ⟨rfl, rfl, rfl⟩

theorem State.readV_vf_drawSprite (s : State) (x y : Reg) (n : Nibble) :
    (s.drawSprite x y n).readV Reg.vf = flagByte (s.spritePlot x y n).hit := by
  simp [State.drawSprite]

/-- VF is 1 where a 1 bit of the sprite meets a lit pixel. -/
theorem State.vf_drawSprite_of_met {s : State} {x y : Reg} {n : Nibble}
    (met : ∃ row col, s.spriteCovers x y n row col ∧ s.fb.pixel row col = true) :
    (s.drawSprite x y n).readV Reg.vf = 1 := by
  rw [State.readV_vf_drawSprite, (s.spritePlot_hit x y n).mpr met]
  rfl

/-- VF is 0 where no 1 bit of the sprite meets a lit pixel. -/
theorem State.vf_drawSprite_of_not_met {s : State} {x y : Reg} {n : Nibble}
    (unmet : ∀ row col, s.spriteCovers x y n row col → s.fb.pixel row col = false) :
    (s.drawSprite x y n).readV Reg.vf = 0 := by
  have no_hit : (s.spritePlot x y n).hit = false := by
    rw [Bool.eq_false_iff, Ne, State.spritePlot_hit]
    rintro ⟨row, col, covered, lit⟩
    exact Bool.false_ne_true ((unmet row col covered).symm.trans lit)
  rw [State.readV_vf_drawSprite, no_hit]
  rfl

/-- Settles O43: a pixel that goes out is a lit one that the sprite covers, and every lit one that it covers goes out. -/
theorem drawXorsTheWrappedSprite : Obligations.DrawXorsTheWrappedSprite := by
  intro x y n s inside
  have inverts := s.spritePlot_inverts x y n
  refine ⟨_, exec_drw_inside inside, inverts.pixel_of_mem, inverts.pixel_of_not_mem, ?collides, ?passes, rfl, rfl,
    s.onlyScreen_drawSprite x y n⟩
  case collides =>
    rintro ⟨row, col, lit, out⟩
    refine State.vf_drawSprite_of_met ⟨row, col, by_contra fun uncovered => ?_, lit⟩
    have kept := inverts.pixel_of_not_mem row col uncovered
    exact Bool.false_ne_true (out.symm.trans (kept.trans lit))
  case passes =>
    intro all_stay
    refine State.vf_drawSprite_of_not_met fun row col covered => ?_
    by_contra not_out
    have lit := eq_true_of_ne_false not_out
    have inverted : (s.drawSprite x y n).fb.pixel row col = !(s.fb.pixel row col) :=
      inverts.pixel_of_mem row col covered
    rw [all_stay row col lit, lit] at inverted
    cases inverted

/-- A sprite drawn from registers other than VF covers the same pixels afterwards. -/
theorem State.spriteCovers_drawSprite {s : State} {x y : Reg} (n : Nibble) (hx : x ≠ Reg.vf) (hy : y ≠ Reg.vf) :
    (s.drawSprite x y n).spriteCovers x y n = s.spriteCovers x y n := by
  have frame := s.onlyScreen_drawSprite x y n
  have column := frame.regs x (by simpa using hx)
  have top := frame.regs y (by simpa using hy)
  have index : (s.drawSprite x y n).i = s.i := frame.index
  have byte (a : Nat) : (s.drawSprite x y n).readMem a = s.readMem a := frame.memory a
  funext row col
  simp only [State.spriteCovers, column, top, index, byte]

/-- Settles O44: the second draw inverts the same pixels again, and meets lit ones exactly where the first met unlit
ones. -/
theorem drawTwiceRestoresTheScreen : Obligations.DrawTwiceRestoresTheScreen := by
  intro x y n s hx hy inside
  have first := s.spritePlot_inverts x y n
  have second := (s.drawSprite x y n).spritePlot_inverts x y n
  have covers := State.spriteCovers_drawSprite (s := s) n hx hy
  rw [covers] at second
  refine ⟨_, _, exec_drw_inside inside, exec_drw_inside (s := s.drawSprite x y n) inside, ?restored, ?met, ?unmet⟩
  case restored =>
    apply Screen.ext_pixel
    intro row col
    by_cases covered : s.spriteCovers x y n row col
    · calc _ = !((s.spritePlot x y n).fb.pixel row col) := second.pixel_of_mem row col covered
        _ = s.fb.pixel row col := by rw [first.pixel_of_mem row col covered, Bool.not_not]
    · exact (second.pixel_of_not_mem row col covered).trans (first.pixel_of_not_mem row col covered)
  case met =>
    rintro ⟨row, col, covered, unlit⟩
    refine State.vf_drawSprite_of_met ⟨row, col, covers ▸ covered, ?_⟩
    exact (first.pixel_of_mem row col covered).trans (congrArg Bool.not unlit)
  case unmet =>
    intro all_lit
    refine State.vf_drawSprite_of_not_met fun row col covered => ?_
    rw [covers] at covered
    exact (first.pixel_of_mem row col covered).trans (congrArg Bool.not (all_lit row col covered))

/-- The reset state with every pixel lit: I is 0, so a sprite is the first rows of the font's first glyph. -/
def litState : State := { State.reset with fb := Vector.replicate 32 (Vector.replicate 64 true) }

theorem litState_pixel (row : Fin 32) (col : Fin 64) : litState.fb.pixel row col = true := by
  simp [litState, Screen.pixel]

/-- Refutes O45: on a screen that is lit all over, a sprite of one row 0xF0 turns four pixels off, and drawn again meets
no lit pixel. -/
theorem not_secondDrawAlwaysCollides : ¬ Obligations.SecondDrawAlwaysCollides := by
  intro claim
  have hv : (0 : Reg) ≠ Reg.vf := by decide
  have inside : litState.i.toNat + (1 : Nibble).toNat - 1 ≤ 0xFFF := by decide
  have one_bit : litState.readMem (litState.i.toNat + 0) ≠ 0 := by decide
  obtain ⟨t, u, draw, again, collides⟩ := claim 0 0 1 litState hv hv (by decide) inside ⟨0, by decide, one_bit⟩
  obtain ⟨t', u', draw', again', -, -, unmet⟩ := drawTwiceRestoresTheScreen 0 0 1 litState hv hv (.inr inside)
  obtain rfl : t' = t := Host.Outcome.next.inj (draw'.symm.trans draw)
  obtain rfl : u' = u := Host.Outcome.next.inj (again'.symm.trans again)
  have passes := unmet fun row col _ => litState_pixel row col
  rw [passes] at collides
  exact absurd collides (by decide)

end Sys2Proof.Machine
end
